-- ==== Sys2Proof/Word.lean ====
section
/-! DEFINITION. The word types of the LSC core: the widths the spec gives its bytes, samples, registers
and bus packets (spec/00_scope.md R9, R10; spec/30_encoding.md R100, R102). -/

namespace Sys2Proof

/-- One byte of the memory port (R70). -/
abbrev Byte := BitVec 8

/-- One 16-bit plane sample or header field (R13, R120). -/
abbrev Half := BitVec 16

/-- One 32-bit register value, command word or byte address (R10, R70, R102). -/
abbrev Word := BitVec 32

/-- One 64-bit value on the host bus (R100). -/
abbrev Packet := BitVec 64

/-- One 10-bit raw sensor sample (R122). -/
abbrev Raw := BitVec 10

/-- Integer division rounded up: `ceil_div(a, b)` of R8. -/
def ceilDiv (a b : Nat) : Nat := a / b + if a % b ≠ 0 then 1 else 0

end Sys2Proof
end

