-- ==== Sys2Proof/Config.lean ====
section
/-! DEFINITION. What is fixed for one machine: the constants of the source (spec/00_scope.md R6), the OPEN
parameters (R7) and the free values of the points the spec calls unspecified (spec/93_implementation_defined.md).
An opaque constant has no body: no proof can see its value, so a claim holds whatever it is. -/

namespace Sys2Proof.Config

/-- The number of byte addresses of the memory port: 2^32 (R70). -/
abbrev addressLimit : Nat := 2 ^ 32

/-- `ID` reads this constant (R22). -/
def idValue : Word := 0x4C534331#32

/-- The magic tag "BRCM" (R6, R140). -/
def magic : List Byte := [0x42#8, 0x52#8, 0x43#8, 0x4D#8]

/-- Size of the header record in bytes, HDR_SIZE (R6, R120). -/
abbrev headerSize : Nat := 70

/-- 10-bit full scale, MAX_VALUE (R6, R173). -/
abbrev maxValue : Nat := 1023

/-- Scanline stride rounding, STRIDE_ALIGN (R6, R147). -/
abbrev strideAlign : Nat := 32

/-- Grid step in both axes, PITCH (R6, R148). -/
abbrev pitch : Nat := 32

/-- First grid row and column, START (R6, R202). -/
abbrev start : Nat := 16

/-- Side of the square centre patch, PATCH (R6, R201). -/
abbrev patch : Nat := 9

/-- Left shift of the patch mean, MID_SHIFT (R6, R201). -/
abbrev midShift : Nat := 5

/-- Lower and upper clip of a gain, GAIN_MIN and GAIN_MAX (R6, R206). -/
abbrev gainMin : Nat := 32

/-- See `gainMin`. -/
abbrev gainMax : Nat := 255

/-- OPEN parameter RESET_FMT_CODES without its reserved bits [31:24], which R33 fixes at 0 (R301). -/
opaque resetFmtCodes : BitVec 24

/-- OPEN parameter RESET_ORDER_CODES (R34, R301). -/
opaque resetOrderCodes : Word

/-- OPEN parameter REG_BASE, the platform address of the register window (R20, 92 D2). No
transaction carries it: a packet names a register by its word index (R100). -/
opaque regBase : Nat

/-- OPEN parameter HOST_COHERENT (R87). It decides only a duty of the host's own caches. -/
opaque hostCoherent : Bool

/-- OPEN parameter IRQ_ROUTE (R272): how the line reaches a host processor. No computation reads it. -/
opaque irqRoute : Nat

/-- Free value: the n-th unspecified 32-bit value, a register read while busy (R47, 93 U2). -/
opaque freeWord : Nat → Word

/-- Free value: the n-th unspecified byte, of an aborted command's write footprint (R245, 93 U5) or
of a host read inside a running command's write footprint (R83, 93 U3). -/
opaque freeByte : Nat → Byte

end Sys2Proof.Config
end

