-- ==== Sys2Proof/Syntax.lean ====
section
/-! DEFINITION. The instructions: one constructor for each row of spec/opcode_table.json. The first eight are
the meanings of a command word, the 32-bit DATA of a REG_WRITE to CMD (spec/30_encoding.md R102 to R105); the
last two are the host's bus transactions (R100). A command has no operand in its word: its operands are
registers (R102). -/

namespace Sys2Proof

/-- One instruction: a command of the engine or a transaction of the host. -/
inductive Instr where
  /-- Command word 0x00000000 (R243). -/
  | nop
  /-- Command word 0x00000001 (R153). -/
  | parse
  /-- Command word 0x00000002 (R184). -/
  | unpack
  /-- Command word 0x00000003 (R212). -/
  | sample
  /-- Command word 0x00000004 (R244). -/
  | run
  /-- Command word 0x0000000F (R245). -/
  | softReset
  /-- A command word with bits [31:4] = 0 and OP in 0x5 .. 0xE (R104, R246). -/
  | illegalOpcode (op : BitVec 4)
  /-- A command word with a bit of [31:4] set, whatever its OP (R105, R246). -/
  | illegalBits (rsv : BitVec 28) (op : BitVec 4)
  /-- Host write of DATA to the register with word index IDX (R100, R240). -/
  | regWrite (idx : BitVec 10) (data : Word)
  /-- Host read of the register with word index IDX (R100, R241). -/
  | regRead (idx : BitVec 10)
  deriving DecidableEq, Repr

end Sys2Proof
end

