-- ==== Sys2Proof/WellFormed.lean ====
section
/-! DEFINITION. Which instruction terms some word spells: the value ranges that spec/opcode_table.json and
spec/30_encoding.md R104 and R105 give the fields of the two ILLEGAL rows. Every other term is spelled by a word. -/

namespace Sys2Proof

/-- The term is spelled by an encoding: a reserved opcode lies in 0x5 .. 0xE (R104), and reserved bits
are not all 0 (R105). -/
def Instr.wellFormed : Instr → Bool
  | .nop => true
  | .parse => true
  | .unpack => true
  | .sample => true
  | .run => true
  | .softReset => true
  | .illegalOpcode op => decide (5 ≤ op.toNat) && decide (op.toNat ≤ 14)
  | .illegalBits rsv _ => rsv != 0#28
  | .regWrite _ _ => true
  | .regRead _ => true

end Sys2Proof
end

