-- ==== Sys2Proof/Decode.lean ====
section
/-! DEFINITION. Decoding and encoding (spec/30_encoding.md R100 to R106). Every command word is 32 bits and
spells a command or an ILLEGAL word; a 64-bit bus value spells a transaction or is refused by name (R101). No
form is of variable length and no mode changes decoding (R106). -/

namespace Sys2Proof

/-- An encoded instruction, by its format (R106). -/
inductive Encoded where
  /-- The 32-bit DATA of a REG_WRITE to CMD (R102). -/
  | command (w : Word)
  /-- A 64-bit value on the host bus (R100). -/
  | packet (t : Packet)
  deriving DecidableEq, Repr

/-- Why a 64-bit value spells no transaction (R101, 93 U11). -/
inductive DecodeError where
  /-- A bit of T[62:42] is set. -/
  | reservedBitsSet
  /-- W = 0 and DATA is not 0. -/
  | readWithData
  deriving DecidableEq, Repr

/-- The opcode map, by comparing all 32 bits (R103 to R105). -/
def decodeCommand (w : Word) : Instr :=
  if w = 0x00000000#32 then .nop
  else if w = 0x00000001#32 then .parse
  else if w = 0x00000002#32 then .unpack
  else if w = 0x00000003#32 then .sample
  else if w = 0x00000004#32 then .run
  else if w = 0x0000000F#32 then .softReset
  else if w.extractLsb' 4 28 = 0#28 then .illegalOpcode (w.extractLsb' 0 4)
  else .illegalBits (w.extractLsb' 4 28) (w.extractLsb' 0 4)

/-- The host bus packet T: W = T[63], IDX = T[41:32], DATA = T[31:0] (R100), refused where R101 says
that it is no transaction. -/
def decodePacket (t : Packet) : Except DecodeError Instr :=
  if t.extractLsb' 42 21 ≠ 0#21 then .error .reservedBitsSet
  else if t.extractLsb' 63 1 = 1#1 then .ok (.regWrite (t.extractLsb' 32 10) (t.extractLsb' 0 32))
  else if t.extractLsb' 0 32 ≠ 0#32 then .error .readWithData
  else .ok (.regRead (t.extractLsb' 32 10))

/-- Decoding of either format. -/
def decode : Encoded → Except DecodeError Instr
  | .command w => .ok (decodeCommand w)
  | .packet t => decodePacket t

/-- The word of an instruction, from the encoding tables of R100, R102 and R103. -/
def encode : Instr → Encoded
  | .nop => .command 0x00000000#32
  | .parse => .command 0x00000001#32
  | .unpack => .command 0x00000002#32
  | .sample => .command 0x00000003#32
  | .run => .command 0x00000004#32
  | .softReset => .command 0x0000000F#32
  | .illegalOpcode op => .command (0#28 ++ op)
  | .illegalBits rsv op => .command (rsv ++ op)
  | .regWrite idx data => .packet (1#1 ++ 0#21 ++ idx ++ data)
  | .regRead idx => .packet (0#1 ++ 0#21 ++ idx ++ 0#32)

/-- How many bits an encoding has (R106). -/
def Encoded.width : Encoded → Nat
  | .command _ => 32
  | .packet _ => 64

/-- An encoding from its width in bits and its value: the two formats of R106, no other width. -/
def Encoded.ofNat (nbits w : Nat) : Option Encoded :=
  if nbits = 32 then some (.command (BitVec.ofNat 32 w))
  else if nbits = 64 then some (.packet (BitVec.ofNat 64 w))
  else none

/-- The instruction the decoder reads from the bits `w` of a row of spec/opcode_table.json that the table
gives `nbits` bits. -/
def decodeTableWord (nbits w : Nat) : Option Instr :=
  match Encoded.ofNat nbits w with
  | none => none
  | some e =>
    match decode e with
    | .ok i => some i
    | .error _ => none

end Sys2Proof
end

