-- ==== Sys2Proof/Machine/State.lean ====
section
/-! DEFINITION. The state of the machine as plain data: every register of spec/10_state.md R21, the internal
state of R48, the memory the block shares with the host (spec/20_memory.md R70), the host's own program and
position (spec/43_control.md R248), and the order in which host and engine move (R81). INVENTORY.md, under
State, lists each with its rule and its reset value. -/

namespace Sys2Proof.Machine

/-- Why the machine stops with a fault. -/
inductive Fault where
  /-- Raised by UNPACK or SAMPLE, after their checks, in a state whose latched geometry is not one a
  successful PARSE leaves: R149's limits are "the least that makes every later access of this spec
  defined", so the spec gives such an access no effect. No run from reset reaches it. Safe. -/
  | undefinedGeometry
  /-- Raised by the engine's turn in a state with BUSY = 1 and no pending word, which R48 and R242 exclude.
  No run from reset reaches it. Safe. -/
  | noPendingCommand
  deriving DecidableEq, Repr

/-- Why the machine has no meaning for what it was given. -/
inductive Refusal where
  /-- An arm of `exec` that has no meaning yet. Safe. -/
  | notModelled (mnemonic : String)
  /-- A 64-bit bus value that spells no transaction: "a decoder given one refuses it" (R101, 93 U11). Safe. -/
  | notATransaction (why : DecodeError)
  /-- A host store into the read or write footprint of the running command: "A model gives the host no
  such move" (R306, 93 U4). Safe. -/
  | footprintRace (addr : Word)
  deriving DecidableEq, Repr

/-- One line of a host program (R107, R108, R248), or one of the host's own accesses to the shared
memory (R81). -/
inductive Line where
  /-- `WR` or `RD`: one bus transaction, as its 64-bit packet. -/
  | bus (t : Packet)
  /-- `POLL`: read register IDX until (v & mask) = value. -/
  | poll (idx : BitVec 10) (mask value : Word)
  /-- The host stores one byte in the shared memory. -/
  | store (addr : Word) (value : Byte)
  /-- The host loads one byte from the shared memory. -/
  | load (addr : Word)
  deriving DecidableEq, Repr

/-- Whose event comes next in the one total order of R81 and R303. -/
inductive Turn where
  | host
  | engine
  | reset
  deriving DecidableEq, Repr

/-- The shared memory: address and byte pairs, in the form `Memory.wf` says. -/
abbrev Memory := List Host.Cell

/-- Every register of the map of R21 that holds a value, each with its 32 bits. `ID` is a constant and
`CMD` holds no value of its own (R22, R24). -/
structure Regs where
  /-- CTRL (R23). -/
  ctrl : Word
  /-- STATUS (R25); bit 0 is `busy` of R48. -/
  status : Word
  /-- ERRCODE (R27). -/
  errcode : Word
  /-- BLACK_LEVEL (R28). -/
  blackLevel : Word
  /-- SRC_BASE (R29). -/
  srcBase : Word
  /-- SRC_LEN (R30). -/
  srcLen : Word
  /-- HDR_OFF (R31). -/
  hdrOff : Word
  /-- PIX_OFF (R32). -/
  pixOff : Word
  /-- FMT_CODES (R33). -/
  fmtCodes : Word
  /-- ORDER_CODES (R34). -/
  orderCodes : Word
  /-- PLANE_BASE0 (R35). -/
  planeBase0 : Word
  /-- PLANE_BASE1 (R35). -/
  planeBase1 : Word
  /-- PLANE_BASE2 (R35). -/
  planeBase2 : Word
  /-- PLANE_BASE3 (R35). -/
  planeBase3 : Word
  /-- GT_BASE (R36). -/
  gtBase : Word
  /-- HDR_NAME0 (R37). -/
  hdrName0 : Word
  /-- HDR_NAME1 (R37). -/
  hdrName1 : Word
  /-- HDR_NAME2 (R37). -/
  hdrName2 : Word
  /-- HDR_NAME3 (R37). -/
  hdrName3 : Word
  /-- HDR_NAME4 (R37). -/
  hdrName4 : Word
  /-- HDR_NAME5 (R37). -/
  hdrName5 : Word
  /-- HDR_NAME6 (R37). -/
  hdrName6 : Word
  /-- HDR_NAME7 (R37). -/
  hdrName7 : Word
  /-- HDR_DIM (R38). -/
  hdrDim : Word
  /-- HDR_PAD (R39). -/
  hdrPad : Word
  /-- HDR_FMT (R40). -/
  hdrFmt : Word
  /-- HDR_BAYER (R41). -/
  hdrBayer : Word
  /-- STRIDE (R42). -/
  stride : Word
  /-- CH_DIM (R43). -/
  chDim : Word
  /-- GRID_DIM (R44). -/
  gridDim : Word
  /-- BAYER_ORDER (R45). -/
  bayerOrder : Word
  /-- MIDDLE0 (R46). -/
  middle0 : Word
  /-- MIDDLE1 (R46). -/
  middle1 : Word
  /-- MIDDLE2 (R46). -/
  middle2 : Word
  /-- MIDDLE3 (R46). -/
  middle3 : Word
  deriving DecidableEq, Repr

/-- The whole machine. -/
structure State where
  /-- The register window of R21. -/
  regs : Regs
  /-- `pending` of R48: the command word of the last accepted CMD write. -/
  pending : Option Word
  /-- The memory that block and host share (R70). -/
  mem : Memory
  /-- The host's program (R248). -/
  script : List Line
  /-- The host's position in it, a line index (R248). -/
  line : Nat
  /-- The events still fixed in the total order of R81; when it is empty a pending completion comes first. -/
  schedule : List Turn
  /-- The value the host's last REG_READ returned (R100, R107). -/
  readData : Word
  /-- The byte the host's last load returned (R81). -/
  loadData : Byte
  /-- How many unspecified values have been drawn; the model's own field, not the spec's. -/
  draws : Nat
  deriving DecidableEq, Repr

/-- The registers after reset (R21, R300). -/
def Regs.reset : Regs where
  ctrl := 0#32
  status := 0#32
  errcode := 0#32
  blackLevel := 16#32
  srcBase := 0#32
  srcLen := 0#32
  hdrOff := 0xB0#32
  pixOff := 0x8000#32
  fmtCodes := 0#8 ++ Config.resetFmtCodes
  orderCodes := Config.resetOrderCodes
  planeBase0 := 0#32
  planeBase1 := 0#32
  planeBase2 := 0#32
  planeBase3 := 0#32
  gtBase := 0#32
  hdrName0 := 0#32
  hdrName1 := 0#32
  hdrName2 := 0#32
  hdrName3 := 0#32
  hdrName4 := 0#32
  hdrName5 := 0#32
  hdrName6 := 0#32
  hdrName7 := 0#32
  hdrDim := 0#32
  hdrPad := 0#32
  hdrFmt := 0#32
  hdrBayer := 0#32
  stride := 0#32
  chDim := 0#32
  gridDim := 0#32
  bayerOrder := 0#32
  middle0 := 0#32
  middle1 := 0#32
  middle2 := 0#32
  middle3 := 0#32

/-- The machine right after reset (R300): idle, nothing pending, no memory listed. The host has no program,
no order of events is fixed, and nothing has been read or drawn (log entries 2, 3 and 5). -/
def State.reset : State where
  regs := Regs.reset
  pending := none
  mem := []
  script := []
  line := 0
  schedule := []
  readData := 0#32
  loadData := 0#8
  draws := 0

end Sys2Proof.Machine
end

