-- ==== Sys2Proof/Machine/Flags.lean ====
section
/-! DEFINITION. The bits of the registers: reading and writing one bit of a word, the flags of STATUS
(spec/10_state.md R25), write-one-to-clear (R20, R240), the fields of ERRCODE and CTRL (R23, R27) and the
interrupt line (spec/60_exceptions.md R271). -/

namespace Sys2Proof.Machine

/-! ## Named updates of the state -/

/-- `x[STATUS] <- v` (R10). -/
def Regs.setStatus (r : Regs) (v : Word) : Regs := { r with status := v }

/-- `x[ERRCODE] <- v` (R10). -/
def Regs.setErrcode (r : Regs) (v : Word) : Regs := { r with errcode := v }

/-- The registers replaced. -/
def State.setRegs (s : State) (r : Regs) : State := { s with regs := r }

/-- The pending word replaced (R48). -/
def State.setPending (s : State) (p : Option Word) : State := { s with pending := p }

/-- The memory replaced. -/
def State.setMem (s : State) (m : Memory) : State := { s with mem := m }

/-- The host's line index replaced (R248). -/
def State.setLine (s : State) (n : Nat) : State := { s with line := n }

/-- The order of the coming events replaced (R81). -/
def State.setSchedule (s : State) (q : List Turn) : State := { s with schedule := q }

/-- The value a REG_READ hands to the host (R241). -/
def State.setReadData (s : State) (v : Word) : State := { s with readData := v }

/-- The byte a load hands to the host (R81). -/
def State.setLoadData (s : State) (v : Byte) : State := { s with loadData := v }

/-- The count of drawn values replaced. -/
def State.setDraws (s : State) (n : Nat) : State := { s with draws := n }

/-! ## Bits -/

/-- The word with bit `i` written. -/
def setBit (w : Word) (i : Nat) (b : Bool) : Word :=
  if b then w ||| BitVec.twoPow 32 i else w &&& ~~~(BitVec.twoPow 32 i)

/-- The one-bit flags of STATUS (R25). -/
inductive Flag where
  | busy
  | done
  | err
  | hdrValid
  | planesValid
  | gridValid
  | uflow
  | div0
  | wbusy
  deriving DecidableEq, Repr

/-- The bit of STATUS that holds a flag (R25). -/
def flagBit : Flag → Nat
  | .busy => 0
  | .done => 1
  | .err => 2
  | .hdrValid => 3
  | .planesValid => 4
  | .gridValid => 5
  | .uflow => 6
  | .div0 => 7
  | .wbusy => 8

/-- A flag of a STATUS word. -/
def statusFlag (w : Word) (f : Flag) : Bool := w.getLsbD (flagBit f)

/-- A flag of the machine's STATUS: `x[STATUS].FLAG`. -/
def State.flag (s : State) (f : Flag) : Bool := statusFlag s.regs.status f

/-- `x[STATUS].FLAG <- b`. -/
def State.setFlag (s : State) (f : Flag) (b : Bool) : State :=
  s.setRegs (s.regs.setStatus (setBit s.regs.status (flagBit f) b))

/-- `STATUS.CUR_OP`, bits [15:12] (R25). -/
def State.curOp (s : State) : BitVec 4 := s.regs.status.extractLsb' 12 4

/-- A STATUS word with CUR_OP written. -/
def statusWithCurOp (w : Word) (op : BitVec 4) : Word :=
  w.extractLsb' 16 16 ++ op ++ w.extractLsb' 0 12

/-- `x[STATUS].CUR_OP <- op`. -/
def State.setCurOp (s : State) (op : BitVec 4) : State :=
  s.setRegs (s.regs.setStatus (statusWithCurOp s.regs.status op))

/-- `x[ERRCODE] <- v`. -/
def State.setErrcode (s : State) (v : Word) : State := s.setRegs (s.regs.setErrcode v)

/-- The bits of STATUS that a host write of 1 clears: 1, 2, 6, 7 and 8 (R25, R240). -/
def w1cMask : Word := 0x000001C6#32

/-- STATUS after a host write of `data` while idle (R240). -/
def statusAfterWrite (status data : Word) : Word := status &&& ~~~(data &&& w1cMask)

/-! ## Fields of CTRL and the interrupt line -/

/-- `CTRL.IE_DONE`, bit 0 (R23). -/
def State.ieDone (s : State) : Bool := s.regs.ctrl.getLsbD 0

/-- `CTRL.IE_ERR`, bit 1 (R23). -/
def State.ieErr (s : State) : Bool := s.regs.ctrl.getLsbD 1

/-- The black-level underflow policies of `CTRL.UFLOW_MODE` (R23). -/
inductive UflowMode where
  | clamp
  | wrap
  | signed
  deriving DecidableEq, Repr

/-- The legal value of a UFLOW_MODE field: 3 stands for 0, as the field is write-any-read-legal (R23). -/
def legalMode (m : BitVec 2) : BitVec 2 := if m = 3#2 then 0#2 else m

/-- The policy a UFLOW_MODE value selects (R23). -/
def uflowModeOf (m : BitVec 2) : UflowMode :=
  if legalMode m = 1#2 then .wrap else if legalMode m = 2#2 then .signed else .clamp

/-- `CTRL.UFLOW_MODE`, bits [3:2] (R23). -/
def State.uflowMode (s : State) : UflowMode := uflowModeOf (s.regs.ctrl.extractLsb' 2 2)

/-- The interrupt output: `irq = (DONE & IE_DONE) | (ERR & IE_ERR)` (R271). -/
def State.irq (s : State) : Bool := (s.flag .done && s.ieDone) || (s.flag .err && s.ieErr)

end Sys2Proof.Machine
end

