-- ==== Sys2Proof/Machine/Ops.lean ====
section
/-! DEFINITION. The shared operations: the bytes of memory (spec/20_memory.md R70, R71), regions (R79), the
draw of an unspecified value, the error record and the completion step (spec/60_exceptions.md R261, R264, R270)
and its clearing (R267). The block has no trap, vector or trap return: R264 and R267 say what stands in their
place. -/

namespace Sys2Proof.Machine

/-! ## Memory -/

/-- What an address that the memory does not list reads as. DESIGN CHOICE, log entry 2: the spec leaves
memory at power-on unspecified (R302, 93 U6). -/
def unlistedByte : Byte := 0#8

/-- The byte at an address: `MemRead(a, 1)` (R11). -/
def Memory.read : Memory → Nat → Byte
  | [], _ => unlistedByte
  | (b, v) :: m, a => if a = b then v else Memory.read m a

/-- The cells of `n` bytes `f off`, `f (off + 1)`, … from address `base + off`, those an unlisted address
already reads as left out. -/
def memCells (base : Nat) (f : Nat → Byte) : Nat → Nat → Memory
  | _, 0 => []
  | off, n + 1 =>
    if f off = unlistedByte then memCells base f (off + 1) n
    else (base + off, f off) :: memCells base f (off + 1) n

/-- The memory with the `n` bytes from `base` written, the byte at `base + i` being `f i`. -/
def Memory.writeRange (m : Memory) (base n : Nat) (f : Nat → Byte) : Memory :=
  m.filter (fun c => decide (c.1 < base)) ++ memCells base f 0 n
    ++ m.filter (fun c => decide (base + n ≤ c.1))

/-- The memory with one byte written: `MemWrite(a, 1, v)` (R11). -/
def Memory.write (m : Memory) (a : Nat) (v : Byte) : Memory := m.writeRange a 1 (fun _ => v)

/-- `le16` (R11). -/
def le16 (b0 b1 : Byte) : Half := b1 ++ b0

/-- `le32` (R11). -/
def le32 (b0 b1 b2 b3 : Byte) : Word := b3 ++ b2 ++ b1 ++ b0

/-- `MemRead(a, 2)`: two bytes, the low byte first (R11, R71). -/
def Memory.readHalf (m : Memory) (a : Nat) : Half := le16 (m.read a) (m.read (a + 1))

/-- Addresses strictly rise from above `lo`, lie in the address space, and no cell holds what an
unlisted address reads as. -/
def Memory.wfFrom : Nat → Memory → Bool
  | _, [] => true
  | lo, (a, v) :: m =>
    decide (lo ≤ a) && decide (a < Config.addressLimit) && (v != unlistedByte) && Memory.wfFrom (a + 1) m

/-- The canonical form of a memory. -/
def Memory.wf (m : Memory) : Bool := Memory.wfFrom 0 m

/-! ## Regions -/

/-- The byte range [base, base + len), in unbounded arithmetic (R79). -/
structure Region where
  base : Nat
  len : Nat
  deriving DecidableEq, Repr

/-- In range: a + n <= 2^32 (R79). -/
def regionInRange (g : Region) : Bool := decide (g.base + g.len ≤ Config.addressLimit)

/-- Two regions overlap (R79). -/
def regionsOverlap (g h : Region) : Bool :=
  decide (0 < g.len) && decide (0 < h.len) && decide (g.base < h.base + h.len)
    && decide (h.base < g.base + g.len)

/-- Some two regions of the list overlap. -/
def someOverlap : List Region → Bool
  | [] => false
  | g :: gs => gs.any (regionsOverlap g) || someOverlap gs

/-- The address lies in the region. -/
def regionHas (g : Region) (a : Nat) : Bool := decide (g.base ≤ a) && decide (a < g.base + g.len)

/-! ## Unspecified values -/

/-- Every byte of a region takes an unspecified value, each a fresh draw (R245). -/
def scrambleRegion (s : State) (g : Region) : State :=
  (s.setMem (s.mem.writeRange g.base g.len (fun i => Config.freeByte (s.draws + i)))).setDraws
    (s.draws + g.len)

/-- Every byte of every region takes an unspecified value. -/
def scramble (s : State) (gs : List Region) : State := gs.foldl scrambleRegion s

/-- An unspecified 32-bit value handed to the host (R47). -/
def drawReadData (s : State) : State :=
  (s.setReadData (Config.freeWord s.draws)).setDraws (s.draws + 1)

/-- An unspecified byte handed to the host (R83). -/
def drawLoadData (s : State) : State :=
  (s.setLoadData (Config.freeByte s.draws)).setDraws (s.draws + 1)

/-! ## Errors and completion -/

/-- The error codes 1 to 9 (R261). -/
inductive ErrCode where
  | magic
  | format
  | order
  | geom
  | bounds
  | overlap
  | blcCfg
  | seq
  | illegal
  deriving DecidableEq, Repr

/-- The value of `ERRCODE.CODE` (R261). -/
def errNumber : ErrCode → Byte
  | .magic => 1#8
  | .format => 2#8
  | .order => 3#8
  | .geom => 4#8
  | .bounds => 5#8
  | .overlap => 6#8
  | .blcCfg => 7#8
  | .seq => 8#8
  | .illegal => 9#8

/-- An ERRCODE word: {ISSUED, PHASE, CODE} (R27). -/
def errWord (issued phase : BitVec 4) (code : ErrCode) : Word :=
  0#16 ++ issued ++ phase ++ errNumber code

/-- What one phase of a command ends in (R12, R270). -/
inductive PhaseResult where
  /-- The phase succeeded; its success effects are in the state. -/
  | ok (s : State)
  /-- The phase raised the error; the state is as the phase left it. -/
  | error (s : State) (code : ErrCode)
  /-- The spec gives the phase no meaning in this state. -/
  | fault (why : Fault)
  deriving DecidableEq, Repr

/-- Completion without error: DONE, and busy cleared (R270 steps 2 and 3). -/
def completeOk (s : State) : State := (s.setFlag .done true).setFlag .busy false

/-- Completion with an error, all that an error records (R264, R270 steps 2 and 3). -/
def completeError (issued phase : BitVec 4) (code : ErrCode) (s : State) : State :=
  ((s.setErrcode (errWord issued phase code)).setFlag .err true).setFlag .busy false

/-- The completion of a command whose phases ended in `r` (R270). -/
def complete (issued phase : BitVec 4) (r : PhaseResult) : Host.Outcome State Fault Refusal :=
  match r with
  | .ok s => .next (completeOk s)
  | .error s code => .next (completeError issued phase code s)
  | .fault why => .fault why

/-- The host's write to STATUS while idle: the W1C bits, and ERRCODE with ERR (R240, R267). -/
def writeStatus (data : Word) (s : State) : State :=
  let s' := s.setRegs (s.regs.setStatus (statusAfterWrite s.regs.status data))
  if data.getLsbD (flagBit .err) then s'.setErrcode 0#32 else s'

/-- One outcome after another: a fault or a refusal ends the step. -/
def andThen (o : Host.Outcome State Fault Refusal) (k : State → Host.Outcome State Fault Refusal) :
    Host.Outcome State Fault Refusal :=
  match o with
  | .next s => k s
  | .fault r => .fault r
  | .refused r => .refused r

end Sys2Proof.Machine
end

