-- ==== Sys2Proof/Machine/Operands.lean ====
section
/-! DEFINITION. The operands: the registers by name and word index (spec/10_state.md R21), their fields, and
the operands in memory: the header record (spec/30_encoding.md R120), the RAW10 pixels (R121, R122) and the
plane samples (R123). -/

namespace Sys2Proof.Machine

/-! ## Registers by name -/

/-- The registers of the map of R21. -/
inductive Reg where
  | id
  | ctrl
  | cmd
  | status
  | errcode
  | blackLevel
  | srcBase
  | srcLen
  | hdrOff
  | pixOff
  | fmtCodes
  | orderCodes
  | planeBase (c : Fin 4)
  | gtBase
  | hdrName (i : Fin 8)
  | hdrDim
  | hdrPad
  | hdrFmt
  | hdrBayer
  | stride
  | chDim
  | gridDim
  | bayerOrder
  | middle (c : Fin 4)
  deriving DecidableEq, Repr

/-- The word index of a register: its offset divided by 4 (R21). -/
def regIndex : Reg → BitVec 10
  | .id => 0x000#10
  | .ctrl => 0x001#10
  | .cmd => 0x002#10
  | .status => 0x003#10
  | .errcode => 0x004#10
  | .blackLevel => 0x005#10
  | .srcBase => 0x006#10
  | .srcLen => 0x007#10
  | .hdrOff => 0x008#10
  | .pixOff => 0x009#10
  | .fmtCodes => 0x00A#10
  | .orderCodes => 0x00B#10
  | .planeBase c => 0x00C#10 + BitVec.ofNat 10 c.val
  | .gtBase => 0x010#10
  | .hdrName i => 0x020#10 + BitVec.ofNat 10 i.val
  | .hdrDim => 0x028#10
  | .hdrPad => 0x029#10
  | .hdrFmt => 0x02A#10
  | .hdrBayer => 0x02B#10
  | .stride => 0x02C#10
  | .chDim => 0x02D#10
  | .gridDim => 0x02E#10
  | .bayerOrder => 0x02F#10
  | .middle c => 0x030#10 + BitVec.ofNat 10 c.val

/-- Every register of the map, in the order of R21. -/
def allRegs : List Reg :=
  [.id, .ctrl, .cmd, .status, .errcode, .blackLevel, .srcBase, .srcLen, .hdrOff, .pixOff, .fmtCodes,
    .orderCodes, .planeBase 0, .planeBase 1, .planeBase 2, .planeBase 3, .gtBase]
  ++ [.hdrName 0, .hdrName 1, .hdrName 2, .hdrName 3, .hdrName 4, .hdrName 5, .hdrName 6, .hdrName 7,
    .hdrDim, .hdrPad, .hdrFmt, .hdrBayer, .stride, .chDim, .gridDim, .bayerOrder]
  ++ [.middle 0, .middle 1, .middle 2, .middle 3]

/-- The register at a word index; none at a reserved or unmapped offset (R20, R21). -/
def regAt (idx : BitVec 10) : Option Reg := allRegs.find? (fun x => regIndex x == idx)

/-- The platform address of a register (R20). -/
def regAddress (x : Reg) : Nat := Config.regBase + 4 * (regIndex x).toNat

/-- `x[PLANE_BASEc]` (R35). -/
def Regs.planeBase (r : Regs) (c : Fin 4) : Word :=
  match c with
  | 0 => r.planeBase0
  | 1 => r.planeBase1
  | 2 => r.planeBase2
  | 3 => r.planeBase3

/-- `x[HDR_NAMEi]` (R37). -/
def Regs.hdrName (r : Regs) (i : Fin 8) : Word :=
  match i with
  | 0 => r.hdrName0
  | 1 => r.hdrName1
  | 2 => r.hdrName2
  | 3 => r.hdrName3
  | 4 => r.hdrName4
  | 5 => r.hdrName5
  | 6 => r.hdrName6
  | 7 => r.hdrName7

/-- `x[MIDDLEc]` (R46). -/
def Regs.middle (r : Regs) (c : Fin 4) : Word :=
  match c with
  | 0 => r.middle0
  | 1 => r.middle1
  | 2 => r.middle2
  | 3 => r.middle3

/-- The 32-bit value a register reads as while idle: a write-only register reads 0 (R20, R24). -/
def Regs.get (r : Regs) : Reg → Word
  | .id => Config.idValue
  | .ctrl => r.ctrl
  | .cmd => 0#32
  | .status => r.status
  | .errcode => r.errcode
  | .blackLevel => r.blackLevel
  | .srcBase => r.srcBase
  | .srcLen => r.srcLen
  | .hdrOff => r.hdrOff
  | .pixOff => r.pixOff
  | .fmtCodes => r.fmtCodes
  | .orderCodes => r.orderCodes
  | .planeBase c => r.planeBase c
  | .gtBase => r.gtBase
  | .hdrName i => r.hdrName i
  | .hdrDim => r.hdrDim
  | .hdrPad => r.hdrPad
  | .hdrFmt => r.hdrFmt
  | .hdrBayer => r.hdrBayer
  | .stride => r.stride
  | .chDim => r.chDim
  | .gridDim => r.gridDim
  | .bayerOrder => r.bayerOrder
  | .middle c => r.middle c

/-- The value at a word index: reserved and unmapped offsets read 0 (R20, R241). -/
def Regs.readAt (r : Regs) (idx : BitVec 10) : Word :=
  match regAt idx with
  | some x => r.get x
  | none => 0#32

/-- A host write of a configuration register while idle: the implemented fields of a RW register take the
written bits, reserved bits keep their value, and every other register is left alone (R20, R240). -/
def Regs.writeConfig (r : Regs) (data : Word) : Reg → Regs
  | .ctrl => { r with
      ctrl := r.ctrl.extractLsb' 4 28 ++ legalMode (data.extractLsb' 2 2) ++ data.extractLsb' 0 2 }
  | .blackLevel => { r with blackLevel := r.blackLevel.extractLsb' 10 22 ++ data.extractLsb' 0 10 }
  | .srcBase => { r with srcBase := data }
  | .srcLen => { r with srcLen := data }
  | .hdrOff => { r with hdrOff := data }
  | .pixOff => { r with pixOff := data }
  | .fmtCodes => { r with fmtCodes := r.fmtCodes.extractLsb' 24 8 ++ data.extractLsb' 0 24 }
  | .orderCodes => { r with orderCodes := data }
  | .planeBase 0 => { r with planeBase0 := data }
  | .planeBase 1 => { r with planeBase1 := data }
  | .planeBase 2 => { r with planeBase2 := data }
  | .planeBase 3 => { r with planeBase3 := data }
  | .gtBase => { r with gtBase := data }
  | .id => r
  | .cmd => r
  | .status => r
  | .errcode => r
  | .hdrName _ => r
  | .hdrDim => r
  | .hdrPad => r
  | .hdrFmt => r
  | .hdrBayer => r
  | .stride => r
  | .chDim => r
  | .gridDim => r
  | .bayerOrder => r
  | .middle _ => r

/-! ## Fields of registers, as numbers -/

/-- The low 16 bits of a register as a number. -/
def lowHalf (w : Word) : Nat := (w.extractLsb' 0 16).toNat

/-- The high 16 bits of a register as a number. -/
def highHalf (w : Word) : Nat := (w.extractLsb' 16 16).toNat

/-- W, `HDR_DIM.WIDTH` (R17, R38). -/
def State.width (s : State) : Nat := lowHalf s.regs.hdrDim

/-- H, `HDR_DIM.HEIGHT` (R17, R38). -/
def State.height (s : State) : Nat := highHalf s.regs.hdrDim

/-- CW of `CH_DIM` (R43). -/
def State.chWidth (s : State) : Nat := lowHalf s.regs.chDim

/-- CH of `CH_DIM` (R43). -/
def State.chHeight (s : State) : Nat := highHalf s.regs.chDim

/-- GW of `GRID_DIM` (R44). -/
def State.gridWidth (s : State) : Nat := lowHalf s.regs.gridDim

/-- GH of `GRID_DIM` (R44). -/
def State.gridHeight (s : State) : Nat := highHalf s.regs.gridDim

/-- The black level b, `BLACK_LEVEL.BL` (R28). -/
def State.black (s : State) : Nat := (s.regs.blackLevel.extractLsb' 0 10).toNat

/-- The order index, `BAYER_ORDER.IDX` (R45). -/
def State.orderIndex (s : State) : BitVec 2 := s.regs.bayerOrder.extractLsb' 0 2

/-! ## Regions of the memory map -/

/-- The source region (R76). -/
def State.sourceRegion (s : State) : Region := ⟨s.regs.srcBase.toNat, s.regs.srcLen.toNat⟩

/-- Plane region c for planes of `cw` × `ch` samples (R77). -/
def State.planeRegion (s : State) (cw ch : Nat) (c : Fin 4) : Region :=
  ⟨(s.regs.planeBase c).toNat, 2 * cw * ch⟩

/-- The four plane regions, in order (R77). -/
def State.planeRegions (s : State) (cw ch : Nat) : List Region :=
  [s.planeRegion cw ch 0, s.planeRegion cw ch 1, s.planeRegion cw ch 2, s.planeRegion cw ch 3]

/-- The gain-table region (R78). -/
def State.tableRegion (s : State) : Region :=
  ⟨s.regs.gtBase.toNat, 4 * s.gridWidth * s.gridHeight⟩

/-! ## The header record and the pixels -/

/-- The header byte h[i] (R142). -/
def State.headerByte (s : State) (i : Nat) : Byte :=
  s.mem.read (s.regs.srcBase.toNat + s.regs.hdrOff.toNat + i)

/-- The 16-bit header field at bytes n, n+1 (R120). -/
def State.headerHalf (s : State) (n : Nat) : Half := le16 (s.headerByte n) (s.headerByte (n + 1))

/-- The name word `HDR_NAMEi` of the header record (R37). -/
def State.headerName (s : State) (i : Nat) : Word :=
  le32 (s.headerByte (4 * i)) (s.headerByte (4 * i + 1)) (s.headerByte (4 * i + 2))
    (s.headerByte (4 * i + 3))

/-- One 10-bit pixel of a RAW10 group: its MSB byte, and its pair of bits of the group's fifth byte,
pixel 0 in bits [7:6] (R122). -/
def rawSample (msb lsbs : Byte) (j : Nat) : Raw := msb ++ lsbs.extractLsb' (6 - 2 * j) 2

/-- `unpack5`, the decoding of one RAW10 group (R170). -/
def unpack5 (b0 b1 b2 b3 b4 : Byte) : Raw × Raw × Raw × Raw :=
  (rawSample b0 b4 0, rawSample b1 b4 1, rawSample b2 b4 2, rawSample b3 b4 3)

/-- The address of the first byte of the group that holds pixel (x, y) (R121, R171). -/
def State.groupAddr (s : State) (x y : Nat) : Nat :=
  s.regs.srcBase.toNat + s.regs.pixOff.toNat + y * s.regs.stride.toNat + 5 * (x / 4)

/-- raw(x, y) (R171). -/
def State.rawPixel (s : State) (x y : Nat) : Raw :=
  rawSample (s.mem.read (s.groupAddr x y + x % 4)) (s.mem.read (s.groupAddr x y + 4)) (x % 4)

/-! ## Plane samples -/

/-- The address of sample (row r, column k) of a plane of width `cw` at `base` (R123). -/
def sampleAddr (base cw r k : Nat) : Nat := base + 2 * (r * cw + k)

/-- P(c, r, k), a sample of physical plane c as SAMPLE reads it (R13). -/
def State.sampleAt (s : State) (c : Fin 4) (r k : Nat) : Nat :=
  (s.mem.readHalf (sampleAddr (s.regs.planeBase c).toNat s.chWidth r k)).toNat

end Sys2Proof.Machine
end

