-- ==== Sys2Proof/Machine/Parse.lean ====
section
/-! DEFINITION. PARSE: the magic check, the header record, its latch, its validation, stride and grid
(spec/40_header_decode.md R140 to R153). -/

namespace Sys2Proof.Machine

/-- The scanline stride in bytes (R147). -/
def strideOf (w pr : Nat) : Nat :=
  (ceilDiv ((w + pr) * 5) 4 + (Config.strideAlign - 1)) / Config.strideAlign * Config.strideAlign

/-- The grid law of R148: ceil_div(n, 32). -/
def gridOf (n : Nat) : Nat := ceilDiv n Config.pitch

/-- The four bytes at SRC_BASE are the magic tag (R140). -/
def State.magicPresent (s : State) : Bool :=
  (List.range 4).map (fun i => s.mem.read (s.regs.srcBase.toNat + i)) == Config.magic

/-- The order lookup of R150: the least k with `ORDER_CODES[8k+7:8k]` = ORD. -/
def orderLookup (codes : Word) (ord : Byte) : Option (BitVec 2) :=
  if codes.extractLsb' 0 8 = ord then some 0#2
  else if codes.extractLsb' 8 8 = ord then some 1#2
  else if codes.extractLsb' 16 8 = ord then some 2#2
  else if codes.extractLsb' 24 8 = ord then some 3#2
  else none

/-- The BAYER_ORDER word of a lookup: {MATCH, IDX}, or 0 (R45, R150). -/
def bayerOrderWord : Option (BitVec 2) → Word
  | some k => 1#1 ++ 0#29 ++ k
  | none => 0#32

/-- A register of two 16-bit numbers, {high, low}. -/
def pairWord (high low : Nat) : Word := BitVec.ofNat 16 high ++ BitVec.ofNat 16 low

/-- The registers after the latch: the header fields and what is derived from them (R145, R146). -/
def State.latchedRegs (s : State) : Regs :=
  let w := (s.headerHalf 32).toNat
  let h := (s.headerHalf 34).toNat
  let pr := (s.headerHalf 36).toNat
  { s.regs with
    hdrName0 := s.headerName 0
    hdrName1 := s.headerName 1
    hdrName2 := s.headerName 2
    hdrName3 := s.headerName 3
    hdrName4 := s.headerName 4
    hdrName5 := s.headerName 5
    hdrName6 := s.headerName 6
    hdrName7 := s.headerName 7
    hdrDim := s.headerHalf 34 ++ s.headerHalf 32
    hdrPad := s.headerHalf 38 ++ s.headerHalf 36
    hdrFmt := s.headerHalf 66 ++ s.headerHalf 64
    hdrBayer := 0#16 ++ s.headerByte 69 ++ s.headerByte 68
    stride := BitVec.ofNat 32 (strideOf w pr)
    chDim := pairWord (h / 2) (w / 2)
    gridDim := pairWord (gridOf (h / 2)) (gridOf (w / 2))
    bayerOrder := bayerOrderWord (orderLookup s.regs.orderCodes (s.headerByte 68)) }

/-- The machine after the latch of R145. -/
def State.latchHeader (s : State) : State := s.setRegs s.latchedRegs

/-- The checks before the latch, in the order of R151: source range, magic, header range. -/
def parsePrecheck (s : State) : Option ErrCode :=
  if ¬ regionInRange s.sourceRegion then some .bounds
  else if s.regs.srcLen.toNat < 4 then some .magic
  else if ¬ s.magicPresent then some .magic
  else if s.regs.hdrOff.toNat + Config.headerSize > s.regs.srcLen.toNat then some .bounds
  else none

/-- The latched format code and packing code are the programmed ones (R144). -/
def State.formatMatches (s : State) : Bool :=
  (s.regs.hdrFmt.extractLsb' 16 16 == s.regs.fmtCodes.extractLsb' 0 16)
    && (s.regs.hdrBayer.extractLsb' 8 8 == s.regs.fmtCodes.extractLsb' 16 8)

/-- The latched header's order code matched (`BAYER_ORDER.MATCH`, R45, R150). -/
def State.orderMatched (s : State) : Bool := s.regs.bayerOrder.getLsbD 31

/-- The geometry limits of R149. -/
def State.geometryLegal (s : State) : Bool :=
  decide (s.width % 4 = 0) && decide (s.height % 2 = 0) && decide (9 ≤ s.width / 2)
    && decide (9 ≤ s.height / 2)

/-- The checks after the latch, in the order of R151: format, order, geometry. -/
def parsePostcheck (s : State) : Option ErrCode :=
  if ¬ s.formatMatches then some .format
  else if ¬ s.orderMatched then some .order
  else if ¬ s.geometryLegal then some .geom
  else none

/-- Phase PARSE (R153); its success effect sets HDR_VALID (R152, R270). -/
def parsePhase (s : State) : PhaseResult :=
  match parsePrecheck s with
  | some code => .error s code
  | none =>
    match parsePostcheck s.latchHeader with
    | some code => .error s.latchHeader code
    | none => .ok (s.latchHeader.setFlag .hdrValid true)

/-- PARSE: the completion step of command word 0x00000001 (R153, R270). -/
def execParse (s : State) : Host.Outcome State Fault Refusal := complete 1#4 1#4 (parsePhase s)

end Sys2Proof.Machine
end

