-- ==== Sys2Proof/Machine/Sample.lean ====
section
/-! DEFINITION. SAMPLE: the reference brightness, the grid walk, the gains, their clipping and the gain table
(spec/42_gain_sampler.md R200 to R216). -/

namespace Sys2Proof.Machine

/-- plane(l, IDX) = l ^ IDX: the physical plane of logical channel l (R200). -/
def physicalPlane (l : Fin 4) (idx : BitVec 2) : Fin 4 := (BitVec.ofFin l ^^^ idx).toFin

/-- The sum of the 9 × 9 patch centred at (CW >> 1, CH >> 1) of plane c (R201). -/
def State.patchSum (s : State) (c : Fin 4) : Nat :=
  ((List.range Config.patch).map fun i =>
    ((List.range Config.patch).map fun j =>
      s.sampleAt c (s.chHeight / 2 - 4 + i) (s.chWidth / 2 - 4 + j)).sum).sum

/-- middle[c]: the truncated mean of the patch, shifted left by 5 (R201). -/
def State.middleOf (s : State) (c : Fin 4) : Nat :=
  s.patchSum c / (Config.patch * Config.patch) * 2 ^ Config.midShift

/-- The sampled row of grid row kr: min(16 + 32 kr, CH - 1) (R202). -/
def State.gridRow (s : State) (kr : Nat) : Nat :=
  min (Config.start + Config.pitch * kr) (s.chHeight - 1)

/-- The plane column of a regular grid column: 16 + 32 j (R203). -/
def gridColumn (j : Nat) : Nat := Config.start + Config.pitch * j

/-- The numerator of the gain of plane c at grid column j: middle * 2 in the edge column GW - 1, else
middle * 3 (R204, R205). -/
def State.gainNum (s : State) (c : Fin 4) (j : Nat) : Nat :=
  if j + 1 = s.gridWidth then s.middleOf c * 2 else s.middleOf c * 3

/-- The sample sum of the gain of plane c at grid row kr and column j: the rightmost two samples of the
row in the edge column, else the sample with its left and right neighbours (R204, R205). -/
def State.gainDen (s : State) (c : Fin 4) (kr j : Nat) : Nat :=
  let y := s.gridRow kr
  if j + 1 = s.gridWidth then s.sampleAt c y (s.chWidth - 2) + s.sampleAt c y (s.chWidth - 1)
  else
    s.sampleAt c y (gridColumn j - 1) + s.sampleAt c y (gridColumn j) + s.sampleAt c y (gridColumn j + 1)

/-- gain(num, s): the clipped ratio, and the ratio of a zero sum (R206, R207). -/
def gain (num den : Nat) : Nat :=
  if den = 0 then (if 0 < num then 255 else 32) else min (max (num / den) Config.gainMin) Config.gainMax

/-- The gain of logical channel l, grid row kr, grid column j (R204 to R207). -/
def State.gainAt (s : State) (l : Fin 4) (kr j : Nat) : Nat :=
  gain (s.gainNum (physicalPlane l s.orderIndex) j) (s.gainDen (physicalPlane l s.orderIndex) kr j)

/-- The byte SAMPLE writes at offset `off` = l * GW * GH + k * GW + j of the gain table (R208). -/
def State.tableByte (s : State) (off : Nat) : Byte :=
  BitVec.ofNat 8
    (s.gainAt (Fin.ofNat 4 (off / (s.gridWidth * s.gridHeight))) (off / s.gridWidth % s.gridHeight)
      (off % s.gridWidth))

/-- Some gain of the grid meets a zero sample sum (R207, R214). -/
def State.zeroDenominator (s : State) : Bool :=
  [0, 1, 2, 3].any fun l : Fin 4 =>
    (List.range s.gridHeight).any fun kr =>
      (List.range s.gridWidth).any fun j =>
        s.gainDen (physicalPlane l s.orderIndex) kr j == 0

/-- The checks of SAMPLE, in the order of R262: SEQ, BOUNDS of the planes, of the gain table, OVERLAP. -/
def sampleCheck (s : State) : Option ErrCode :=
  let planes := s.planeRegions s.chWidth s.chHeight
  if ¬ s.flag .hdrValid ∨ ¬ s.flag .planesValid then some .seq
  else if ¬ planes.all regionInRange then some .bounds
  else if ¬ regionInRange s.tableRegion then some .bounds
  else if (planes ++ [s.sourceRegion]).any (regionsOverlap s.tableRegion) then some .overlap
  else none

/-- Every sample the walk reads lies in its plane and every gain it writes in the table: the patch
(R149, R201), the regular columns with their neighbours and the edge pair (R203, R205). -/
def State.gridDefined (s : State) : Bool :=
  decide (9 ≤ s.chWidth) && decide (9 ≤ s.chHeight)
    && (decide (s.gridHeight = 0) || (decide (1 ≤ s.gridWidth)
      && (decide (s.gridWidth = 1) || decide (gridColumn (s.gridWidth - 2) + 1 < s.chWidth))))

/-- The memory with the gain table written (R208, R212). -/
def State.tableWritten (s : State) : Memory :=
  s.mem.writeRange s.regs.gtBase.toNat (4 * s.gridWidth * s.gridHeight) s.tableByte

/-- The registers with MIDDLE0 .. MIDDLE3 written, by physical plane (R213). -/
def State.middleRegs (s : State) : Regs :=
  { s.regs with
    middle0 := BitVec.ofNat 32 (s.middleOf 0)
    middle1 := BitVec.ofNat 32 (s.middleOf 1)
    middle2 := BitVec.ofNat 32 (s.middleOf 2)
    middle3 := BitVec.ofNat 32 (s.middleOf 3) }

/-- The success effects of SAMPLE: the table, MIDDLE0 .. MIDDLE3, DIV0 where a sum was zero,
GRID_VALID (R213, R214, R270). -/
def sampleEffects (s : State) : State :=
  (((s.setRegs s.middleRegs).setMem s.tableWritten).setFlag .div0
    (s.flag .div0 || s.zeroDenominator)).setFlag .gridValid true

/-- Phase SAMPLE (R212). -/
def samplePhase (s : State) : PhaseResult :=
  match sampleCheck s with
  | some code => .error s code
  | none => if s.gridDefined then .ok (sampleEffects s) else .fault .undefinedGeometry

/-- SAMPLE: the completion step of command word 0x00000003 (R212, R270). -/
def execSample (s : State) : Host.Outcome State Fault Refusal := complete 3#4 3#4 (samplePhase s)

end Sys2Proof.Machine
end

