-- ==== Sys2Proof/Machine/Unpack.lean ====
section
/-! DEFINITION. UNPACK: RAW10 unpack, de-interleave and black-level correction into the four planes
(spec/41_unpack_blc.md R170 to R185). -/

namespace Sys2Proof.Machine

/-- `trunc_N(v)`: the low N bits of an integer, as a number (R9). -/
def truncInt (n : Nat) (v : Int) : Nat := (v % (2 ^ n : Int)).toNat

/-- Black-level correction in range: blc(r, b) (R173). -/
def blc (r b : Nat) : Nat := (r - b) * Config.maxValue / (Config.maxValue - b)

/-- Underflow in mode 1, unsigned 32-bit wrap (R175). -/
def wrapUnderflow (r b : Nat) : Nat :=
  truncInt 16 (truncInt 32 ((truncInt 32 ((r : Int) - b) : Int) * Config.maxValue) / (Config.maxValue - b))

/-- Underflow in mode 2, signed truncate: the quotient truncated toward zero, cut to 16 bits (R176). -/
def signedUnderflow (r b : Nat) : Nat :=
  truncInt 16 (-(((b - r) * Config.maxValue / (Config.maxValue - b) : Nat) : Int))

/-- `corr(r, b, mode)`, the corrected sample as 16 bits (R184). -/
def corr (r b : Nat) (mode : UflowMode) : Half :=
  if b ≤ r then BitVec.ofNat 16 (blc r b)
  else
    match mode with
    | .clamp => 0#16
    | .wrap => BitVec.ofNat 16 (wrapUnderflow r b)
    | .signed => BitVec.ofNat 16 (signedUnderflow r b)

/-- The sample that UNPACK writes at row r, column k of physical plane c: the corrected raw pixel
(2k + (c & 1), 2r + (c >> 1)), which R172 sends there. -/
def State.unpackedSample (s : State) (c : Fin 4) (r k : Nat) : Half :=
  corr (s.rawPixel (2 * k + c.val % 2) (2 * r + c.val / 2)).toNat s.black s.uflowMode

/-- The byte that UNPACK writes at offset `off` of plane region c, planes being `cw` samples wide: two bytes
a sample, the low byte first, row after row (R123). -/
def State.unpackedByte (s : State) (cw : Nat) (c : Fin 4) (off : Nat) : Byte :=
  (s.unpackedSample c (off / 2 / cw) (off / 2 % cw)).extractLsb' (8 * (off % 2)) 8

/-- Some raw pixel of the frame lies below the black level (R177). -/
def State.underflows (s : State) : Bool :=
  (List.range s.height).any fun y =>
    (List.range s.width).any fun x => decide ((s.rawPixel x y).toNat < s.black)

/-- The checks of UNPACK, in the order of R262: SEQ, BLC_CFG, BOUNDS of the source range, of the last
scanline byte, of the planes, OVERLAP. The last scanline byte is in unbounded arithmetic (R8). -/
def unpackCheck (s : State) : Option ErrCode :=
  let planes := s.planeRegions (s.width / 2) (s.height / 2)
  if ¬ s.flag .hdrValid then some .seq
  else if s.black = 1023 then some .blcCfg
  else if ¬ regionInRange s.sourceRegion then some .bounds
  else if (s.regs.pixOff.toNat : Int) + ((s.height : Int) - 1) * s.regs.stride.toNat + 5 * (s.width / 4 : Nat)
      > s.regs.srcLen.toNat then some .bounds
  else if ¬ planes.all regionInRange then some .bounds
  else if someOverlap (planes ++ [s.sourceRegion]) then some .overlap
  else none

/-- The latched frame is made of whole RAW10 groups and whole Bayer cells (R149): the assignment of R172 then
writes every sample of the four planes exactly once (R184). -/
def State.frameDefined (s : State) : Bool := decide (s.width % 4 = 0) && decide (s.height % 2 = 0)

/-- The memory with the four planes written (R184); no plane overlaps another or the source (R183, R89),
so the order of the accesses is not observable. -/
def State.planesWritten (s : State) : Memory :=
  let cw := s.width / 2
  let n := 2 * cw * (s.height / 2)
  (((s.mem.writeRange (s.regs.planeBase 0).toNat n (s.unpackedByte cw 0)).writeRange
    (s.regs.planeBase 1).toNat n (s.unpackedByte cw 1)).writeRange
    (s.regs.planeBase 2).toNat n (s.unpackedByte cw 2)).writeRange
    (s.regs.planeBase 3).toNat n (s.unpackedByte cw 3)

/-- The success effects of UNPACK: the planes, UFLOW where a sample underflowed, PLANES_VALID (R177, R270). -/
def unpackEffects (s : State) : State :=
  ((s.setMem s.planesWritten).setFlag .uflow (s.flag .uflow || s.underflows)).setFlag .planesValid true

/-- Phase UNPACK (R184). -/
def unpackPhase (s : State) : PhaseResult :=
  match unpackCheck s with
  | some code => .error s code
  | none => if s.frameDefined then .ok (unpackEffects s) else .fault .undefinedGeometry

/-- UNPACK: the completion step of command word 0x00000002 (R184, R270). -/
def execUnpack (s : State) : Host.Outcome State Fault Refusal := complete 2#4 2#4 (unpackPhase s)

end Sys2Proof.Machine
end

