-- ==== Sys2Proof/Machine/Control.lean ====
section
/-! DEFINITION. The control commands NOP, RUN, SOFT_RESET and ILLEGAL (spec/43_control.md R243 to R246), the
footprints of the running command (spec/20_memory.md R80) and the reset of the block
(spec/70_reset_and_hazards.md R300, R303). -/

namespace Sys2Proof.Machine

/-! ## RUN -/

/-- RUN's phases in order, stopping at the first that does not succeed: that phase's opcode and result (R244). -/
def runPhases (s : State) : BitVec 4 × PhaseResult :=
  match parsePhase s with
  | .ok s1 =>
    match unpackPhase s1 with
    | .ok s2 => (3#4, samplePhase s2)
    | .error s2 code => (2#4, .error s2 code)
    | .fault why => (2#4, .fault why)
  | .error s1 code => (1#4, .error s1 code)
  | .fault why => (1#4, .fault why)

/-- RUN: the completion step of command word 0x00000004 (R244, R270). -/
def execRun (s : State) : Host.Outcome State Fault Refusal :=
  complete 4#4 (runPhases s).1 (runPhases s).2

/-! ## NOP and ILLEGAL words -/

/-- NOP: the completion step of command word 0x00000000, which has no phase (R243). -/
def execNop (s : State) : Host.Outcome State Fault Refusal := complete 0#4 0#4 (.ok s)

/-- A reserved opcode: completes with ILLEGAL, PHASE = ISSUED = OP (R246). -/
def execIllegalOpcode (op : BitVec 4) (s : State) : Host.Outcome State Fault Refusal :=
  complete op op (.error s .illegal)

/-- A word with reserved bits set: completes with ILLEGAL, PHASE = ISSUED = OP, whatever the bits (R246). -/
def execIllegalBits (_rsv : BitVec 28) (op : BitVec 4) (s : State) : Host.Outcome State Fault Refusal :=
  complete op op (.error s .illegal)

/-! ## Footprints -/

/-- The command in progress: the meaning of `pending` while busy (R48). -/
def State.runningCommand (s : State) : Option Instr :=
  if s.flag .busy then s.pending.map decodeCommand else none

/-- UNPACK's write footprint: empty where a check fails, since every check precedes the first write (R80). -/
def unpackWrites (s : State) : List Region :=
  match unpackCheck s with
  | some _ => []
  | none => s.planeRegions (s.width / 2) (s.height / 2)

/-- SAMPLE's write footprint (R80). -/
def sampleWrites (s : State) : List Region :=
  match sampleCheck s with
  | some _ => []
  | none => [s.tableRegion]

/-- The machine as SAMPLE's checks see it after UNPACK in a RUN (R244). -/
def afterUnpack (s : State) : State := s.setFlag .planesValid true

/-- RUN's write footprint: that of each phase it would perform, with the geometry its PARSE latches (R80). -/
def runWrites (s : State) : List Region :=
  match parsePhase s with
  | .ok s1 =>
    match unpackCheck s1 with
    | some _ => []
    | none => unpackWrites s1 ++ sampleWrites (afterUnpack s1)
  | .error _ _ => []
  | .fault _ => []

/-- The write footprint of a command (R80). -/
def writeFootprint (i : Instr) (s : State) : List Region :=
  match i with
  | .nop => []
  | .parse => []
  | .unpack => unpackWrites s
  | .sample => sampleWrites s
  | .run => runWrites s
  | .softReset => []
  | .illegalOpcode _ => []
  | .illegalBits _ _ => []
  | .regWrite _ _ => []
  | .regRead _ => []

/-- PARSE's read footprint: empty where it fails before its first access (R80, R140, R143). -/
def parseReads (s : State) : List Region :=
  if regionInRange s.sourceRegion && decide (4 ≤ s.regs.srcLen.toNat) then
    [⟨s.regs.srcBase.toNat, 4⟩,
      ⟨s.regs.srcBase.toNat + s.regs.hdrOff.toNat, Config.headerSize⟩]
  else []

/-- UNPACK's read footprint: the scanline bytes of R181. -/
def unpackReads (s : State) : List Region :=
  match unpackCheck s with
  | some _ => []
  | none => (List.range s.height).map fun y => ⟨s.groupAddr 0 y, 5 * (s.width / 4)⟩

/-- SAMPLE's read footprint: the four planes (R80). -/
def sampleReads (s : State) : List Region :=
  match sampleCheck s with
  | some _ => []
  | none => s.planeRegions s.chWidth s.chHeight

/-- RUN's read footprint: the union of its phases' (R80). -/
def runReads (s : State) : List Region :=
  parseReads s ++
    match parsePhase s with
    | .ok s1 =>
      match unpackCheck s1 with
      | some _ => []
      | none => unpackReads s1 ++ sampleReads (afterUnpack s1)
    | .error _ _ => []
    | .fault _ => []

/-- The read footprint of a command (R80). -/
def readFootprint (i : Instr) (s : State) : List Region :=
  match i with
  | .nop => []
  | .parse => parseReads s
  | .unpack => unpackReads s
  | .sample => sampleReads s
  | .run => runReads s
  | .softReset => []
  | .illegalOpcode _ => []
  | .illegalBits _ _ => []
  | .regWrite _ _ => []
  | .regRead _ => []

/-- The write footprint of the command in progress; empty while idle. -/
def State.runningWrites (s : State) : List Region :=
  match s.runningCommand with
  | some i => writeFootprint i s
  | none => []

/-- The read footprint of the command in progress; empty while idle. -/
def State.runningReads (s : State) : List Region :=
  match s.runningCommand with
  | some i => readFootprint i s
  | none => []

/-! ## Reset of the block -/

/-- The reset of the block, by SOFT_RESET or by the reset input: the pending command never completes and the
bytes of its write footprint take unspecified values; every register takes its reset value; memory is not
otherwise written (R245, R300, R303). The host's own state is not the block's. -/
def resetBlock (s : State) : State :=
  ((scramble s s.runningWrites).setRegs Regs.reset).setPending none

/-- SOFT_RESET, command word 0x0000000F (R245). -/
def execSoftReset (s : State) : Host.Outcome State Fault Refusal := .next (resetBlock s)

end Sys2Proof.Machine
end

