-- ==== Sys2Proof/Machine/Transactions.lean ====
section
/-! DEFINITION. The host's transactions REG_WRITE and REG_READ, and the issue of a command
(spec/43_control.md R240 to R242; spec/10_state.md R20, R26, R47). -/

namespace Sys2Proof.Machine

/-- The validity flags that issue clears, by the command the word spells (R242). -/
def clearValidity (i : Instr) (s : State) : State :=
  match i with
  | .parse => ((s.setFlag .hdrValid false).setFlag .planesValid false).setFlag .gridValid false
  | .run => ((s.setFlag .hdrValid false).setFlag .planesValid false).setFlag .gridValid false
  | .unpack => (s.setFlag .planesValid false).setFlag .gridValid false
  | .sample => s.setFlag .gridValid false
  | .nop => s
  | .softReset => s
  | .illegalOpcode _ => s
  | .illegalBits _ _ => s
  | .regWrite _ _ => s
  | .regRead _ => s

/-- An accepted command word: busy and pending are set, CUR_OP names it, DONE, ERR and ERRCODE are
cleared, and the validity flags of what it replaces (R242). -/
def acceptCommand (w : Word) (s : State) : State :=
  clearValidity (decodeCommand w)
    ((((((s.setPending (some w)).setFlag .busy true).setCurOp (w.extractLsb' 0 4)).setFlag .done false).setFlag
      .err false).setErrcode 0#32)

/-- Issue: a write of `w` to CMD while idle; the exact word 0x0000000F resets and nothing else (R242, R263). -/
def issueCommand (w : Word) (s : State) : State :=
  if w = 0x0000000F#32 then resetBlock s else acceptCommand w s

/-- A write while busy: only the exact SOFT_RESET word to CMD is performed, every other write sets WBUSY
and does nothing else (R26, R240, R263). -/
def writeBusy (idx : BitVec 10) (data : Word) (s : State) : State :=
  if regAt idx = some .cmd ∧ data = 0x0000000F#32 then resetBlock s else s.setFlag .wbusy true

/-- A write while idle, by register; reserved and unmapped offsets ignore it (R20, R240). -/
def writeIdle (idx : BitVec 10) (data : Word) (s : State) : State :=
  match regAt idx with
  | none => s
  | some .cmd => issueCommand data s
  | some .status => writeStatus data s
  | some x => s.setRegs (s.regs.writeConfig data x)

/-- REG_WRITE (R240). -/
def execRegWrite (idx : BitVec 10) (data : Word) (s : State) : Host.Outcome State Fault Refusal :=
  if s.flag .busy then .next (writeBusy idx data s) else .next (writeIdle idx data s)

/-- The registers PARSE writes, which are unspecified to a read while PARSE or RUN is in progress (R47). -/
def latchedReg : Reg → Bool
  | .hdrName _ => true
  | .hdrDim => true
  | .hdrPad => true
  | .hdrFmt => true
  | .hdrBayer => true
  | .stride => true
  | .chDim => true
  | .gridDim => true
  | .bayerOrder => true
  | .id => false
  | .ctrl => false
  | .cmd => false
  | .status => false
  | .errcode => false
  | .blackLevel => false
  | .srcBase => false
  | .srcLen => false
  | .hdrOff => false
  | .pixOff => false
  | .fmtCodes => false
  | .orderCodes => false
  | .planeBase _ => false
  | .gtBase => false
  | .middle _ => false

/-- The registers SAMPLE writes (R47). -/
def middleReg : Reg → Bool
  | .middle _ => true
  | _ => false

/-- A read of the register returns an unspecified value while the command is in progress (R47). -/
def readUnspecified (i : Instr) (x : Reg) : Bool :=
  match i with
  | .parse => latchedReg x
  | .run => latchedReg x || middleReg x
  | .sample => middleReg x
  | .nop => false
  | .unpack => false
  | .softReset => false
  | .illegalOpcode _ => false
  | .illegalBits _ _ => false
  | .regWrite _ _ => false
  | .regRead _ => false

/-- A read at this word index is unspecified now (R47). -/
def State.readIsDraw (s : State) (idx : BitVec 10) : Bool :=
  match s.runningCommand, regAt idx with
  | some i, some x => readUnspecified i x
  | _, _ => false

/-- REG_READ: the value goes to the host, and nothing of the block changes (R241). -/
def execRegRead (idx : BitVec 10) (s : State) : Host.Outcome State Fault Refusal :=
  if s.readIsDraw idx then .next (drawReadData s) else .next (s.setReadData (s.regs.readAt idx))

end Sys2Proof.Machine
end

