-- ==== Sys2Proof/Machine/Dispatch.lean ====
section
/-! DEFINITION. The dispatch: each instruction's meaning, one arm a constructor. -/

namespace Sys2Proof.Machine

/-- The effect of one instruction: of a command, its completion step; of a transaction, its one event. -/
def exec (i : Instr) (s : State) : Host.Outcome State Fault Refusal :=
  match i with
  | .nop => Sys2Proof.Machine.execNop s
  | .parse => Sys2Proof.Machine.execParse s
  | .unpack => Sys2Proof.Machine.execUnpack s
  | .sample => Sys2Proof.Machine.execSample s
  | .run => Sys2Proof.Machine.execRun s
  | .softReset => Sys2Proof.Machine.execSoftReset s
  | .illegalOpcode op => Sys2Proof.Machine.execIllegalOpcode op s
  | .illegalBits rsv op => Sys2Proof.Machine.execIllegalBits rsv op s
  | .regWrite idx data => Sys2Proof.Machine.execRegWrite idx data s
  | .regRead idx => Sys2Proof.Machine.execRegRead idx s

end Sys2Proof.Machine
end

