-- ==== Sys2Proof/Machine/Turn.lean ====
section
/-! DEFINITION. Who moves next and what a move does: the host's next script line, the engine's completion step,
or the reset input (spec/20_memory.md R81; spec/43_control.md R247 to R249; spec/70_reset_and_hazards.md R303).
The order of the events is plain data of the state, so that a claim over all states covers every order. -/

namespace Sys2Proof.Machine

/-- The host goes on to its next line (R248). -/
def advanceLine (s : State) : State := s.setLine (s.line + 1)

/-- An address lies in one of the regions. -/
def inRegions (gs : List Region) (a : Word) : Bool := gs.any fun g => regionHas g a.toNat

/-- A bus packet is decoded and its instruction run (R100, R101). -/
def runPacket (t : Packet) (s : State) : Host.Outcome State Fault Refusal :=
  match decodePacket t with
  | .ok i => exec i s
  | .error why => .refused (.notATransaction why)

/-- The host stores a byte: refused inside a running command's footprint (R306), else written. -/
def hostStore (a : Word) (v : Byte) (s : State) : Host.Outcome State Fault Refusal :=
  if inRegions (s.runningReads ++ s.runningWrites) a then .refused (.footprintRace a)
  else .next (s.setMem (s.mem.write a.toNat v))

/-- The host loads a byte: unspecified inside a running command's write footprint (R83), else the
byte that memory holds. -/
def hostLoad (a : Word) (s : State) : State :=
  if inRegions s.runningWrites a then drawLoadData s else s.setLoadData (s.mem.read a.toNat)

/-- One line of the host's program; POLL stays on its line until its condition holds (R248, R249). -/
def runLine (l : Line) (s : State) : Host.Outcome State Fault Refusal :=
  match l with
  | .bus t => andThen (runPacket t s) fun s' => .next (advanceLine s')
  | .poll idx mask value =>
    andThen (exec (.regRead idx) s) fun s' =>
      .next (if s'.readData &&& mask = value then advanceLine s' else s')
  | .store a v => andThen (hostStore a v s) fun s' => .next (advanceLine s')
  | .load a => .next (advanceLine (hostLoad a s))

/-- The host's turn: its next line, or nothing once its program has ended (R248). -/
def hostTurn (s : State) : Host.Outcome State Fault Refusal :=
  match s.script[s.line]? with
  | some l => runLine l s
  | none => .next s

/-- The engine's turn: the completion step of the pending command while busy, nothing while idle (R247). -/
def engineTurn (s : State) : Host.Outcome State Fault Refusal :=
  if s.flag .busy then
    match s.pending with
    | some w => exec (decodeCommand w) s
    | none => .fault .noPendingCommand
  else .next s

/-- The next event of the total order: the scheduled one, and with none scheduled the completion step if
busy, else the host's line (R81, R247). -/
def takeTurn (s : State) : Host.Outcome State Fault Refusal :=
  match s.schedule with
  | .host :: q => hostTurn (s.setSchedule q)
  | .engine :: q => engineTurn (s.setSchedule q)
  | .reset :: q => .next (resetBlock (s.setSchedule q))
  | [] => if s.flag .busy then engineTurn s else hostTurn s

/-- A run has ended: the host's index has passed its last line and nothing is pending (R312). -/
def State.ended (s : State) : Bool := decide (s.script.length ≤ s.line) && !s.flag .busy

/-- The script with the line at an index replaced; lines it lacks before it are reads of ID. -/
def placeLine : Nat → Line → List Line → List Line
  | 0, l, [] => [l]
  | 0, l, _ :: ls => l :: ls
  | n + 1, l, [] => .bus 0#64 :: placeLine n l []
  | n + 1, l, x :: xs => x :: placeLine n l xs

/-- The state whose very next step runs the instruction with these bits: a packet stands at the host's line
and the host moves next; a command word is the command in progress and the engine moves next. -/
def placeWord (s : State) (nbits w : Nat) : State :=
  match Encoded.ofNat nbits w with
  | some (.packet t) => { s with script := placeLine s.line (.bus t) s.script, schedule := .host :: s.schedule }
  | some (.command c) =>
    (((s.setPending (some c)).setFlag .busy true).setCurOp (c.extractLsb' 0 4)).setSchedule
      (.engine :: s.schedule)
  | none => s

end Sys2Proof.Machine
end

