-- ==== Sys2Proof/Machine/Step.lean ====
section
/-! DEFINITION. One step of the machine: one event of the total order of spec/20_memory.md R81. -/

namespace Sys2Proof.Machine

/-- One event: a host transaction or memory access, an engine completion step, or a reset (R81, R303). -/
def step (s : State) : Host.Outcome State Fault Refusal := takeTurn s

/-- The state whose next step runs the instruction with bits `w`, of a row the table gives `nbits` bits. -/
def State.withFetchWord (s : State) (nbits w : Nat) : State := placeWord s nbits w

end Sys2Proof.Machine
end

