-- ==== Sys2Proof/Machine/Script.lean ====
section
/-! DEFINITION. The host script syntax and its pseudo-instructions (spec/30_encoding.md R107, R108), each as the
line or lines it stands for. -/

namespace Sys2Proof.Machine

/-- The packet of an encoded transaction; a command word is no packet and gives RD ID. -/
def packetOf (e : Encoded) : Packet :=
  match e with
  | .packet t => t
  | .command _ => 0#64

/-- The command word of an encoded command; a packet gives word 0. -/
def commandWordOf (e : Encoded) : Word :=
  match e with
  | .command w => w
  | .packet _ => 0#32

/-- The register operand `<REG>` of a script line (R107): a name of the map of R21, or `@0x<offset>`, which
also reaches the reserved and unmapped offsets. -/
inductive ScriptReg where
  | name (x : Reg)
  | offset (off : Nat)
  deriving DecidableEq, Repr

/-- An offset is a multiple of 4 in 0x000 .. 0xFFC: no other is the offset of a 32-bit register (R20, R100;
log entry 23). -/
def ScriptReg.wellFormed : ScriptReg → Bool
  | .name _ => true
  | .offset off => decide (off % 4 = 0) && decide (off ≤ 0xFFC)

/-- The word index a script operand stands for: IDX = offset / 4 (R107). -/
def scriptIndex : ScriptReg → BitVec 10
  | .name x => regIndex x
  | .offset off => BitVec.ofNat 10 (off / 4)

/-- `WR <REG>, <value>` (R107). -/
def lineWr (x : ScriptReg) (v : Word) : Line := .bus (packetOf (encode (.regWrite (scriptIndex x) v)))

/-- `RD <REG>` (R107). -/
def lineRd (x : ScriptReg) : Line := .bus (packetOf (encode (.regRead (scriptIndex x))))

/-- `CMD <MNEMONIC>` expands to `WR CMD, <word>` (R108). -/
def lineCmd (i : Instr) : Line := lineWr (.name .cmd) (commandWordOf (encode i))

/-- `W1C <REG>, <mask>` expands to `WR <REG>, <mask>` (R108). -/
def lineW1c (x : ScriptReg) (mask : Word) : Line := lineWr x mask

/-- `POLL <REG>, <mask>, <value>` (R108). -/
def linePoll (x : ScriptReg) (mask value : Word) : Line := .poll (scriptIndex x) mask value

/-- `WAIT` expands to `POLL STATUS, 0x1, 0x0` (R108). -/
def lineWait : Line := linePoll (.name .status) 0x1#32 0x0#32

end Sys2Proof.Machine
end

