-- ==== Sys2Proof/Safety.lean ====
section
/-! DEFINITION. The terms that claims use: the invariant of the machine, in named parts, and what a safe step is.
Every part holds at reset and every step keeps the whole. -/

namespace Sys2Proof.Machine

/-- The reserved bits of every register are 0, and UFLOW_MODE is never 3 (R20, R23, R25, R27, R28, R33,
R41, R45). -/
structure ReservedZero (r : Regs) : Prop where
  ctrl : r.ctrl.extractLsb' 4 28 = 0#28
  mode : r.ctrl.extractLsb' 2 2 ≠ 3#2
  statusMid : r.status.extractLsb' 9 3 = 0#3
  statusHigh : r.status.extractLsb' 16 16 = 0#16
  errcode : r.errcode.extractLsb' 16 16 = 0#16
  blackLevel : r.blackLevel.extractLsb' 10 22 = 0#22
  fmtCodes : r.fmtCodes.extractLsb' 24 8 = 0#8
  hdrBayer : r.hdrBayer.extractLsb' 16 16 = 0#16
  bayerOrder : r.bayerOrder.extractLsb' 2 29 = 0#29

/-- How the flags of STATUS and ERRCODE stand to one another: DONE and ERR are never both 1 (R25), an
outcome is recorded only while idle (R268), ERRCODE is 0 unless ERR (R27), and no plane is valid without a
header, no table without planes (R242, R270). -/
structure FlagsLegal (s : State) : Prop where
  doneErr : s.flag .done = true → s.flag .err = false
  busyDone : s.flag .busy = true → s.flag .done = false
  busyErr : s.flag .busy = true → s.flag .err = false
  codeZero : s.flag .err = false → s.regs.errcode = 0#32
  planesHdr : s.flag .planesValid = true → s.flag .hdrValid = true
  gridPlanes : s.flag .gridValid = true → s.flag .planesValid = true

/-- While busy, `pending` holds the accepted word, CUR_OP names it, and the validity flags of what it replaces
are clear (R48, R242). -/
structure PendingLegal (s : State) : Prop where
  accepted : s.flag .busy = true → ∃ w, s.pending = some w ∧ w ≠ 0x0000000F#32 ∧ s.curOp = w.extractLsb' 0 4
  hdr : s.runningCommand = some .parse ∨ s.runningCommand = some .run → s.flag .hdrValid = false
  planes : s.runningCommand = some .unpack → s.flag .planesValid = false
  grid : s.runningCommand = some .sample → s.flag .gridValid = false

/-- With HDR_VALID set, the latched geometry is one that a successful PARSE leaves (R146, R149, R152). -/
structure GeometryLatched (s : State) : Prop where
  legal : s.flag .hdrValid = true → s.geometryLegal = true
  chDim : s.flag .hdrValid = true → s.regs.chDim = pairWord (s.height / 2) (s.width / 2)
  gridDim : s.flag .hdrValid = true →
    s.regs.gridDim = pairWord (gridOf (s.height / 2)) (gridOf (s.width / 2))
  stride : s.flag .hdrValid = true →
    s.regs.stride = BitVec.ofNat 32 (strideOf s.width (lowHalf s.regs.hdrPad))
  order : s.flag .hdrValid = true → s.orderMatched = true

/-- The invariant of the machine. -/
structure Inv (s : State) : Prop where
  mem : s.mem.wf = true
  reserved : ReservedZero s.regs
  flags : FlagsLegal s
  pending : PendingLegal s
  geometry : GeometryLatched s

/-- The refusals that are the host's own doing: a bus value that is no transaction (R101) and a store into a
running footprint (R306). -/
def hostBreach (r : Refusal) : Prop :=
  (∃ why, r = .notATransaction why) ∨ ∃ addr, r = .footprintRace addr

/-- A safe outcome: a next state, or a refusal of what the host must not do; never a fault. -/
def safeOutcome : Host.Outcome State Fault Refusal → Prop
  | .next _ => True
  | .fault _ => False
  | .refused r => hostBreach r

end Sys2Proof.Machine
end

