-- ==== Sys2Proof/Certificates/Slice0/Obligations.lean ====
section
/-! DEFINITION. The statements for the provers. They are written from the spec's rules with bit numbers, byte
addresses and arithmetic of their own, so that they do not repeat the model's definitions. The terms they share
stand first. -/

namespace Sys2Proof.Claims

open Sys2Proof Sys2Proof.Machine

/-! ## Terms -/

/-- Bit `i` of STATUS. -/
def stBit (s : State) (i : Nat) : Bool := s.regs.status.getLsbD i

/-- The byte of memory at an address. -/
def byteAt (s : State) (a : Nat) : Nat := (s.mem.read a).toNat

/-- Every byte of memory is as before. -/
def sameMemory (s t : State) : Prop := ∀ a, t.mem.read a = s.mem.read a

/-- Nothing but registers changed: the pending word, memory, the host's own state and the draws are as before. -/
def onlyRegs (s t : State) : Prop := t = s.setRegs t.regs

/-- Nothing but STATUS changed. -/
def onlyStatus (s t : State) : Prop := t = s.setRegs (s.regs.setStatus t.regs.status)

/-- Nothing but STATUS and ERRCODE changed. -/
def onlyStatusErrcode (s t : State) : Prop :=
  t = s.setRegs ((s.regs.setStatus t.regs.status).setErrcode t.regs.errcode)

/-- STATUS after an error completion: ERR (bit 2) set, BUSY (bit 0) clear, every other bit as before (R264). -/
def errBits (s t : State) : Prop :=
  ∀ i, stBit t i = if i = 2 then true else if i = 0 then false else stBit s i

/-- An error completion that changes nothing but STATUS and ERRCODE, with the given {ISSUED, PHASE, CODE}. -/
def endsInError (s t : State) (issued phase : BitVec 4) (code : Byte) : Prop :=
  onlyStatusErrcode s t ∧ errBits s t ∧ t.regs.errcode = 0#16 ++ issued ++ phase ++ code

/-- SRC_BASE, SRC_LEN and the other address operands as numbers. -/
def src (s : State) : Nat := s.regs.srcBase.toNat

/-- See `src`. -/
def len (s : State) : Nat := s.regs.srcLen.toNat

/-- Byte `i` of the header record at SRC_BASE + HDR_OFF (R120). -/
def hdr (s : State) (i : Nat) : Byte := s.mem.read (s.regs.srcBase.toNat + s.regs.hdrOff.toNat + i)

/-- The 16-bit little-endian header field at byte `n` (R120). -/
def hdr16 (s : State) (n : Nat) : Nat := (hdr s n).toNat + 256 * (hdr s (n + 1)).toNat

/-- The tag "BRCM" stands at SRC_BASE (R140). -/
def tagPresent (s : State) : Prop :=
  byteAt s (src s) = 0x42 ∧ byteAt s (src s + 1) = 0x52 ∧ byteAt s (src s + 2) = 0x43
    ∧ byteAt s (src s + 3) = 0x4D

/-- Byte `k` of ORDER_CODES (R34). -/
def orderByte (s : State) (k : Nat) : Byte := s.regs.orderCodes.extractLsb' (8 * k) 8

/-- `k` is the least index whose ORDER_CODES byte is the header's order code (R150). -/
def orderFound (s : State) (k : Nat) : Prop :=
  k < 4 ∧ orderByte s k = hdr s 68 ∧ ∀ j, j < k → orderByte s j ≠ hdr s 68

/-- The two code comparisons of R144, on the header record. -/
def formatAgrees (s : State) : Prop :=
  hdr16 s 66 = (s.regs.fmtCodes.extractLsb' 0 16).toNat ∧ hdr s 69 = s.regs.fmtCodes.extractLsb' 16 8

/-- The geometry limits of R149, on the header record. -/
def geometryAgrees (s : State) : Prop :=
  hdr16 s 32 % 4 = 0 ∧ hdr16 s 34 % 2 = 0 ∧ 9 ≤ hdr16 s 32 / 2 ∧ 9 ≤ hdr16 s 34 / 2

/-- The source region is in range, the tag is present and the header record lies inside (R151, 1 to 3). -/
def headerReadable (s : State) : Prop :=
  src s + len s ≤ 2 ^ 32 ∧ 4 ≤ len s ∧ tagPresent s ∧ s.regs.hdrOff.toNat + 70 ≤ len s

/-- The stride of R147 for width w and right padding pr. -/
def strideValue (w pr : Nat) : Nat := ((((w + pr) * 5 + 3) / 4 + 31) / 32) * 32

/-- The latched and derived registers hold what the header record of `s` gives (R120, R145, R146). -/
def latchedFrom (s t : State) : Prop :=
  (∀ i : Fin 8, t.regs.hdrName i
      = hdr s (4 * i.val + 3) ++ hdr s (4 * i.val + 2) ++ hdr s (4 * i.val + 1) ++ hdr s (4 * i.val))
  ∧ t.regs.hdrDim.toNat = hdr16 s 32 + 65536 * hdr16 s 34
  ∧ t.regs.hdrPad.toNat = hdr16 s 36 + 65536 * hdr16 s 38
  ∧ t.regs.hdrFmt.toNat = hdr16 s 64 + 65536 * hdr16 s 66
  ∧ t.regs.hdrBayer.toNat = (hdr s 68).toNat + 256 * (hdr s 69).toNat
  ∧ t.regs.stride.toNat = strideValue (hdr16 s 32) (hdr16 s 36)
  ∧ t.regs.chDim.toNat = hdr16 s 32 / 2 + 65536 * (hdr16 s 34 / 2)
  ∧ t.regs.gridDim.toNat = (hdr16 s 32 / 2 + 31) / 32 + 65536 * ((hdr16 s 34 / 2 + 31) / 32)
  ∧ (∀ k, orderFound s k → t.regs.bayerOrder.toNat = 2 ^ 31 + k)
  ∧ ((∀ k, ¬ orderFound s k) → t.regs.bayerOrder = 0#32)

/-- The registers a PARSE phase may write: those of R145 and R146, STATUS and ERRCODE. -/
def parseMayWrite (x : Reg) : Prop :=
  (∃ i, x = .hdrName i)
    ∨ x ∈ [Reg.hdrDim, .hdrPad, .hdrFmt, .hdrBayer, .stride, .chDim, .gridDim, .bayerOrder]

/-- An address lies outside the region of `n` bytes from `base`. -/
def outside (base n a : Nat) : Prop := a < base ∨ base + n ≤ a

/-- The regions [a, a+n) and [b, b+m) overlap (R79). -/
def overlap (a n b m : Nat) : Prop := 0 < n ∧ 0 < m ∧ a < b + m ∧ b < a + n

/-- PLANE_BASEc. -/
def plane (s : State) (c : Fin 4) : Nat := (s.regs.planeBase c).toNat

/-- The raw pixel (x, y): MSB byte and bit pair, with the given stride (R121, R122, R171). -/
def rawAt (s : State) (st x y : Nat) : Nat :=
  4 * byteAt s (src s + s.regs.pixOff.toNat + y * st + 5 * (x / 4) + x % 4)
    + byteAt s (src s + s.regs.pixOff.toNat + y * st + 5 * (x / 4) + 4) / 2 ^ (6 - 2 * (x % 4)) % 4

/-- BLACK_LEVEL.BL. -/
def bl (s : State) : Nat := (s.regs.blackLevel.extractLsb' 0 10).toNat

/-- CTRL.UFLOW_MODE. -/
def mode (s : State) : Nat := (s.regs.ctrl.extractLsb' 2 2).toNat

/-- The corrected sample of R173 to R176, for the modes 0, 1 and 2. -/
def corrected (m r b : Nat) : Nat :=
  if b ≤ r then (r - b) * 1023 / (1023 - b)
  else if m = 1 then (2 ^ 32 - (b - r)) * 1023 % 2 ^ 32 / (1023 - b) % 2 ^ 16
  else if m = 2 then (2 ^ 16 - (b - r) * 1023 / (1023 - b) % 2 ^ 16) % 2 ^ 16
  else 0

/-- W and H of HDR_DIM, CW and CH of CH_DIM, GW and GH of GRID_DIM. -/
def imgW (s : State) : Nat := s.regs.hdrDim.toNat % 65536

/-- See `imgW`. -/
def imgH (s : State) : Nat := s.regs.hdrDim.toNat / 65536

/-- See `imgW`. -/
def chW (s : State) : Nat := s.regs.chDim.toNat % 65536

/-- See `imgW`. -/
def chH (s : State) : Nat := s.regs.chDim.toNat / 65536

/-- See `imgW`. -/
def grW (s : State) : Nat := s.regs.gridDim.toNat % 65536

/-- See `imgW`. -/
def grH (s : State) : Nat := s.regs.gridDim.toNat / 65536

/-- No two of the four planes of `n` bytes overlap, and none overlaps the source region (R183). -/
def planesApart (s : State) (n : Nat) : Prop :=
  (∀ c d : Fin 4, c ≠ d → ¬ overlap (plane s c) n (plane s d) n)
    ∧ ∀ c : Fin 4, ¬ overlap (plane s c) n (src s) (len s)

/-- Everything UNPACK checks but HDR_VALID holds for a frame of w × h pixels with stride st, made of whole groups
and cells (R180 to R183, R149). -/
def unpackFits (s : State) (w h st : Nat) : Prop :=
  bl s ≠ 1023 ∧ src s + len s ≤ 2 ^ 32 ∧ w % 4 = 0 ∧ h % 2 = 0 ∧ 0 < h
    ∧ s.regs.pixOff.toNat + (h - 1) * st + 5 * (w / 4) ≤ len s
    ∧ (∀ c : Fin 4, plane s c + 2 * (w / 2) * (h / 2) ≤ 2 ^ 32)
    ∧ planesApart s (2 * (w / 2) * (h / 2))

/-- Everything SAMPLE checks but the validity flags holds for planes of cw × ch samples (R210, R211). -/
def sampleFits (s : State) (cw ch : Nat) : Prop :=
  9 ≤ cw ∧ 9 ≤ ch
    ∧ (∀ c : Fin 4, plane s c + 2 * cw * ch ≤ 2 ^ 32)
    ∧ s.regs.gtBase.toNat + 4 * ((cw + 31) / 32) * ((ch + 31) / 32) ≤ 2 ^ 32
    ∧ (∀ c : Fin 4, ¬ overlap s.regs.gtBase.toNat (4 * ((cw + 31) / 32) * ((ch + 31) / 32)) (plane s c)
        (2 * cw * ch))
    ∧ ¬ overlap s.regs.gtBase.toNat (4 * ((cw + 31) / 32) * ((ch + 31) / 32)) (src s) (len s)

/-- P(c, r, k) in memory, for planes cw samples wide (R13, R123). -/
def sampleOf (s : State) (cw : Nat) (c : Fin 4) (r k : Nat) : Nat :=
  byteAt s (plane s c + 2 * (r * cw + k)) + 256 * byteAt s (plane s c + 2 * (r * cw + k) + 1)

/-- middle[c] of R201: the truncated mean of the 9 × 9 patch centred at (CW >> 1, CH >> 1) of plane c, times 32. -/
def brightness (s : State) (c : Fin 4) : Nat :=
  ((List.range 9).map fun i => ((List.range 9).map fun j =>
    sampleOf s (chW s) c (chH s / 2 + i - 4) (chW s / 2 + j - 4)).sum).sum / 81 * 32

/-- The plane row that grid row kr samples (R202). -/
def walkRow (s : State) (kr : Nat) : Nat := min (16 + 32 * kr) (chH s - 1)

/-- The sample sum at grid row kr and column j of plane c: the row's last two samples in the edge column, else three
samples centred at column 16 + 32 j (R204, R205). -/
def gridSum (s : State) (c : Fin 4) (kr j : Nat) : Nat :=
  if j = grW s - 1 then
    sampleOf s (chW s) c (walkRow s kr) (chW s - 2) + sampleOf s (chW s) c (walkRow s kr) (chW s - 1)
  else
    sampleOf s (chW s) c (walkRow s kr) (15 + 32 * j) + sampleOf s (chW s) c (walkRow s kr) (16 + 32 * j)
      + sampleOf s (chW s) c (walkRow s kr) (17 + 32 * j)

/-- The numerator there: twice the brightness in the edge column, else three times (R204, R205). -/
def gridNum (s : State) (c : Fin 4) (j : Nat) : Nat :=
  if j = grW s - 1 then 2 * brightness s c else 3 * brightness s c

/-- The physical plane of logical channel l: l ^ BAYER_ORDER.IDX (R200). -/
def channelPlane (s : State) (l : Fin 4) : Fin 4 :=
  Fin.ofNat 4 (Nat.xor l.val (s.regs.bayerOrder.toNat % 4))

/-- A command word is in progress, or would be: the commands, all but SOFT_RESET, with their completion step. -/
def isPhaseCommand : Instr → Prop
  | .nop => True
  | .parse => True
  | .unpack => True
  | .sample => True
  | .run => True
  | .illegalOpcode _ => True
  | .illegalBits _ _ => True
  | .softReset => False
  | .regWrite _ _ => False
  | .regRead _ => False

/-- The regions an instruction may store to: a command its own write footprint, a reset by SOFT_RESET or by
a write of CMD that of the command it aborts, a read none (R80, R245). -/
def storesTo (i : Instr) (s : State) : List Region :=
  match i with
  | .nop => []
  | .parse => []
  | .unpack => writeFootprint .unpack s
  | .sample => writeFootprint .sample s
  | .run => writeFootprint .run s
  | .illegalOpcode _ => []
  | .illegalBits _ _ => []
  | .softReset => s.runningWrites
  | .regWrite _ _ => s.runningWrites
  | .regRead _ => []

/-- The offset of a register, as the table of R21 prints it. -/
def mapOffset : Reg → Nat
  | .id => 0x000
  | .ctrl => 0x004
  | .cmd => 0x008
  | .status => 0x00C
  | .errcode => 0x010
  | .blackLevel => 0x014
  | .srcBase => 0x018
  | .srcLen => 0x01C
  | .hdrOff => 0x020
  | .pixOff => 0x024
  | .fmtCodes => 0x028
  | .orderCodes => 0x02C
  | .planeBase c => 0x030 + 4 * c.val
  | .gtBase => 0x040
  | .hdrName i => 0x080 + 4 * i.val
  | .hdrDim => 0x0A0
  | .hdrPad => 0x0A4
  | .hdrFmt => 0x0A8
  | .hdrBayer => 0x0AC
  | .stride => 0x0B0
  | .chDim => 0x0B4
  | .gridDim => 0x0B8
  | .bayerOrder => 0x0BC
  | .middle c => 0x0C0 + 4 * c.val

/-- What each register reads as from its own storage: ID the constant of R22, CMD 0 (R24). -/
def readsItsStorage (r : Regs) : Prop :=
  r.get .id = 0x4C534331#32 ∧ r.get .ctrl = r.ctrl ∧ r.get .cmd = 0#32 ∧ r.get .status = r.status
    ∧ r.get .errcode = r.errcode ∧ r.get .blackLevel = r.blackLevel ∧ r.get .srcBase = r.srcBase
    ∧ r.get .srcLen = r.srcLen ∧ r.get .hdrOff = r.hdrOff ∧ r.get .pixOff = r.pixOff
    ∧ r.get .fmtCodes = r.fmtCodes ∧ r.get .orderCodes = r.orderCodes
    ∧ r.get (.planeBase 0) = r.planeBase0 ∧ r.get (.planeBase 1) = r.planeBase1
    ∧ r.get (.planeBase 2) = r.planeBase2 ∧ r.get (.planeBase 3) = r.planeBase3 ∧ r.get .gtBase = r.gtBase
    ∧ r.get (.hdrName 0) = r.hdrName0 ∧ r.get (.hdrName 1) = r.hdrName1 ∧ r.get (.hdrName 2) = r.hdrName2
    ∧ r.get (.hdrName 3) = r.hdrName3 ∧ r.get (.hdrName 4) = r.hdrName4 ∧ r.get (.hdrName 5) = r.hdrName5
    ∧ r.get (.hdrName 6) = r.hdrName6 ∧ r.get (.hdrName 7) = r.hdrName7 ∧ r.get .hdrDim = r.hdrDim
    ∧ r.get .hdrPad = r.hdrPad ∧ r.get .hdrFmt = r.hdrFmt ∧ r.get .hdrBayer = r.hdrBayer
    ∧ r.get .stride = r.stride ∧ r.get .chDim = r.chDim ∧ r.get .gridDim = r.gridDim
    ∧ r.get .bayerOrder = r.bayerOrder ∧ r.get (.middle 0) = r.middle0 ∧ r.get (.middle 1) = r.middle1
    ∧ r.get (.middle 2) = r.middle2 ∧ r.get (.middle 3) = r.middle3

/-- PARSE and UNPACK succeed in a RUN on this state, so that it goes on to SAMPLE (R151, R262). -/
def runReachesSample (s : State) : Prop :=
  headerReadable s ∧ formatAgrees s ∧ (∃ k, orderFound s k) ∧ geometryAgrees s
    ∧ unpackFits s (hdr16 s 32) (hdr16 s 34) (strideValue (hdr16 s 32) (hdr16 s 36))

/-- The region of plane c for planes of cw × ch samples (R77). -/
def planeReg (s : State) (cw ch : Nat) (c : Fin 4) : Region := ⟨plane s c, 2 * cw * ch⟩

/-- The gain-table region for a grid of gw × gh cells (R78). -/
def tableReg (s : State) (gw gh : Nat) : Region := ⟨s.regs.gtBase.toNat, 4 * gw * gh⟩

/-- The bytes read of scanline y, for a stride st and a frame w pixels wide (R181). -/
def scanline (s : State) (st w y : Nat) : Region := ⟨src s + s.regs.pixOff.toNat + y * st, 5 * (w / 4)⟩

/-- The bytes PARSE reads: the magic tag or the header record (R80). -/
def headerReg (s : State) (g : Region) : Prop :=
  g = ⟨src s, 4⟩ ∨ g = ⟨src s + s.regs.hdrOff.toNat, 70⟩

/-- The 32-bit registers a host writes whole (R29 to R32, R34 to R36). -/
def wholeWritten (x : Reg) : Prop :=
  (∃ c, x = .planeBase c)
    ∨ x ∈ [Reg.srcBase, .srcLen, .hdrOff, .pixOff, .orderCodes, .gtBase]

end Sys2Proof.Claims

open Sys2Proof Sys2Proof.Machine Sys2Proof.Claims

/-! ## Encoding -/

/-- Decoding the encoding of a well-formed instruction gives it back, with every operand at every value its
encoding admits (R100, R102 to R105). -/
def Obligations.DecodeOfEncode : Prop :=
  ∀ i : Instr, i.wellFormed = true → decode (encode i) = .ok i

/-- No two words spell one instruction: the encoding of what a word or packet decodes to is that word or packet, so no
bit of it is dropped (R100, R103). -/
def Obligations.EncodeOfDecode : Prop :=
  (∀ w : Word, encode (decodeCommand w) = .command w ∧ (decodeCommand w).wellFormed = true)
    ∧ ∀ (t : Packet) (i : Instr), decodePacket t = .ok i → encode i = .packet t

/-- Words written out from R103 and R100, and what they spell. -/
def Obligations.WrittenOutWordsDecode : Prop :=
  decodeCommand 0x00000000#32 = .nop ∧ decodeCommand 0x00000001#32 = .parse
    ∧ decodeCommand 0x00000002#32 = .unpack ∧ decodeCommand 0x00000003#32 = .sample
    ∧ decodeCommand 0x00000004#32 = .run ∧ decodeCommand 0x0000000F#32 = .softReset
    ∧ decodeCommand 0x00000007#32 = .illegalOpcode 7#4
    ∧ decodeCommand 0x80000001#32 = .illegalBits 0x8000000#28 1#4
    ∧ decodeCommand 0x0000001F#32 = .illegalBits 1#28 0xF#4
    ∧ decodePacket 0x8000000500012345#64 = .ok (.regWrite 5#10 0x12345#32)
    ∧ decodePacket 0x000003FF00000000#64 = .ok (.regRead 0x3FF#10)

/-- A 64-bit value is no transaction exactly where a reserved bit is set or a read carries data (R101); that the host's
turn with such a value on its line is refused by name is the model's reading of R101 (log entry 19), and the scheduled
turn its choice (log entry 5). -/
def Obligations.NonTransactionsAreRefused : Prop :=
  (∀ t : Packet, (∃ e, decodePacket t = .error e)
      ↔ t.extractLsb' 42 21 ≠ 0#21 ∨ (t.getLsbD 63 = false ∧ t.extractLsb' 0 32 ≠ 0#32))
    ∧ ∀ (s : State) (q : List Turn) (t : Packet), s.schedule = .host :: q →
        s.script[s.line]? = some (.bus t) →
        t.extractLsb' 42 21 ≠ 0#21 ∨ (t.getLsbD 63 = false ∧ t.extractLsb' 0 32 ≠ 0#32) →
        ∃ e, step s = .refused (.notATransaction e)

/-- R104, R105: every other command word spells ILLEGAL: a reserved opcode by its OP, a word with a reserved bit set
by all its bits. -/
def Obligations.OtherWordsSpellIllegal : Prop :=
  (∀ op : BitVec 4, 5 ≤ op.toNat → op.toNat ≤ 14 → decodeCommand (0#28 ++ op) = .illegalOpcode op)
    ∧ ∀ (rsv : BitVec 28) (op : BitVec 4), rsv ≠ 0#28 → decodeCommand (rsv ++ op) = .illegalBits rsv op

/-- R21: the word index of every register is its offset in the register map divided by 4, and every register reads from
storage of its own; ID reads its constant (R22), CMD 0 (R24). -/
def Obligations.RegisterMapIsTheTable : Prop :=
  (∀ x : Reg, (regIndex x).toNat * 4 = mapOffset x)
    ∧ (∀ x : Reg, regAt (BitVec.ofNat 10 (mapOffset x / 4)) = some x)
    ∧ (∀ idx : BitVec 10, (∀ x, mapOffset x ≠ idx.toNat * 4) → regAt idx = none)
    ∧ ∀ r : Regs, readsItsStorage r

/-- R107, R108: a script line stands for the packet W << 63 | IDX << 32 | DATA, with IDX the offset divided by 4, the offset
being that of the map of R21 for a register's name and the written one for `@0x<offset>`; CMD, W1C, POLL and WAIT expand
as the pseudo-instructions do. Which offsets are well-formed is log entry 23. -/
def Obligations.ScriptLinesSpellTheirPackets : Prop :=
  (∀ (x : Reg) (v : Word),
      lineWr (.name x) v = .bus (BitVec.ofNat 64 (2 ^ 63 + mapOffset x / 4 * 2 ^ 32 + v.toNat)))
    ∧ (∀ x : Reg, lineRd (.name x) = .bus (BitVec.ofNat 64 (mapOffset x / 4 * 2 ^ 32)))
    ∧ (∀ (off : Nat) (v : Word), (ScriptReg.offset off).wellFormed = true →
        lineWr (.offset off) v = .bus (BitVec.ofNat 64 (2 ^ 63 + off / 4 * 2 ^ 32 + v.toNat))
        ∧ lineRd (.offset off) = .bus (BitVec.ofNat 64 (off / 4 * 2 ^ 32)))
    ∧ (∀ off : Nat, (ScriptReg.offset off).wellFormed = true ↔ off % 4 = 0 ∧ off ≤ 0xFFC)
    ∧ (∀ (x : ScriptReg) (v : Word), lineW1c x v = lineWr x v)
    ∧ (∀ (x : Reg) (m v : Word), linePoll (.name x) m v = .poll (BitVec.ofNat 10 (mapOffset x / 4)) m v)
    ∧ (∀ (off : Nat) (m v : Word), (ScriptReg.offset off).wellFormed = true →
        linePoll (.offset off) m v = .poll (BitVec.ofNat 10 (off / 4)) m v)
    ∧ (∀ i w, encode i = .command w → lineCmd i = .bus (BitVec.ofNat 64 (2 ^ 63 + 2 * 2 ^ 32 + w.toNat)))
    ∧ lineCmd .run = .bus 0x8000000200000004#64
    ∧ lineWait = .poll 3#10 1#32 0#32

/-! ## A step runs the decoded instruction -/

/-- On the host's turn, a packet that decodes to i runs i, which always completes, and the host goes to its next line
(R81, R248). The host has its turn where the schedule says so, and with nothing scheduled while idle.
The list of scheduled events is the model's choice (log entry 5). -/
def Obligations.HostTurnRunsThePacket : Prop :=
  ∀ (s u : State) (t : Packet) (i : Instr),
    (s.schedule = .host :: u.schedule ∧ u = s.setSchedule u.schedule
      ∨ s.schedule = [] ∧ stBit s 0 = false ∧ u = s) →
    s.script[s.line]? = some (.bus t) → decodePacket t = .ok i →
    ∃ v, exec i u = .next v ∧ step s = .next (v.setLine (s.line + 1))

/-- R247: on the engine's turn while busy, the step is the completion step of the pending command, exec of what its word
decodes to; with nothing scheduled a busy machine takes the engine's turn. While idle the engine's turn does nothing.
The list of scheduled events, and the idle turn, are the model's choices (log entries 5 and 16). -/
def Obligations.EngineTurnRunsThePendingCommand : Prop :=
  ∀ s : State,
    (∀ w, s.pending = some w → stBit s 0 = true → s.schedule = [] → step s = exec (decodeCommand w) s)
    ∧ (∀ w q, s.pending = some w → stBit s 0 = true → s.schedule = .engine :: q →
        step s = exec (decodeCommand w) (s.setSchedule q))
    ∧ ∀ q, stBit s 0 = false → s.schedule = .engine :: q → step s = .next (s.setSchedule q)

/-- An instruction placed with withFetchWord is the one the very next step runs: a command as the command in progress,
a transaction at the host's line. The form of the placing is the model's choice (log entry 4). -/
def Obligations.PlacedWordIsRunNext : Prop :=
  ∀ (s : State) (w : Nat) (i : Instr),
    (decodeTableWord 32 w = some i →
      ∃ u, step (s.withFetchWord 32 w) = exec i u ∧ stBit u 0 = true ∧ u.mem = s.mem ∧ u.script = s.script
        ∧ u.pending = some (BitVec.ofNat 32 w) ∧ (∀ x, x ≠ Reg.status → u.regs.get x = s.regs.get x))
    ∧ (decodeTableWord 64 w = some i →
      ∃ u v, exec i u = .next v ∧ step (s.withFetchWord 64 w) = .next (v.setLine (s.line + 1))
        ∧ u.regs = s.regs ∧ u.mem = s.mem ∧ u.pending = s.pending ∧ u.line = s.line)

/-- R249: POLL reads its register as REG_READ does and advances the host's line exactly when (v & mask) = value.
The host's turn is the model's (log entry 5). -/
def Obligations.PollStaysUntilItHolds : Prop :=
  ∀ (s v : State) (q : List Turn) (idx : BitVec 10) (mask value : Word), s.schedule = .host :: q →
    s.script[s.line]? = some (.poll idx mask value) →
    exec (.regRead idx) (s.setSchedule q) = .next v →
    step s = .next (if v.readData &&& mask = value then v.setLine (s.line + 1) else v)

/-- R312 and R279: when the host's lines have run out and nothing is pending or scheduled, a step changes nothing.
That the model then repeats its state is its choice (log entry 16). -/
def Obligations.EndedRunStaysEnded : Prop :=
  ∀ s : State, s.schedule = [] → s.ended = true → step s = .next s

/-! ## Host transactions -/

/-- R240: while idle, a write at the offset of a register whose 32 bits are one field stores DATA there; no other register,
and nothing outside the registers, changes. -/
def Obligations.IdleWriteStoresWholeRegister : Prop :=
  ∀ (s : State) (x : Reg) (idx : BitVec 10) (data : Word), stBit s 0 = false → wholeWritten x →
    idx.toNat * 4 = mapOffset x →
    ∃ t, exec (.regWrite idx data) s = .next t ∧ t.regs.get x = data ∧ onlyRegs s t
      ∧ ∀ y, y ≠ x → t.regs.get y = s.regs.get y

/-- R240, R23, R28, R33: while idle, a write of CTRL, BLACK_LEVEL or FMT_CODES stores the bits of its fields, a UFLOW_MODE
of 3 as 0, and leaves the reserved bits, every other register and all else. -/
def Obligations.IdleWriteStoresFields : Prop :=
  ∀ (s : State) (data : Word), stBit s 0 = false →
    (∃ t, exec (.regWrite 1#10 data) s = .next t ∧ onlyRegs s t
      ∧ (∀ y, y ≠ Reg.ctrl → t.regs.get y = s.regs.get y)
      ∧ t.regs.ctrl.extractLsb' 0 2 = data.extractLsb' 0 2
      ∧ t.regs.ctrl.extractLsb' 2 2 = (if data.extractLsb' 2 2 = 3#2 then 0#2 else data.extractLsb' 2 2)
      ∧ t.regs.ctrl.extractLsb' 4 28 = s.regs.ctrl.extractLsb' 4 28)
    ∧ (∃ t, exec (.regWrite 5#10 data) s = .next t ∧ onlyRegs s t
      ∧ (∀ y, y ≠ Reg.blackLevel → t.regs.get y = s.regs.get y)
      ∧ t.regs.blackLevel.extractLsb' 0 10 = data.extractLsb' 0 10
      ∧ t.regs.blackLevel.extractLsb' 10 22 = s.regs.blackLevel.extractLsb' 10 22)
    ∧ ∃ t, exec (.regWrite 10#10 data) s = .next t ∧ onlyRegs s t
      ∧ (∀ y, y ≠ Reg.fmtCodes → t.regs.get y = s.regs.get y)
      ∧ t.regs.fmtCodes.extractLsb' 0 24 = data.extractLsb' 0 24
      ∧ t.regs.fmtCodes.extractLsb' 24 8 = s.regs.fmtCodes.extractLsb' 24 8

/-- R20, R21: while idle, a write of an RO register, of a reserved offset (0x044 .. 0x07C, 0x0D0 .. 0xFFC) has no effect
at all. -/
def Obligations.IdleWriteElsewhereIsIgnored : Prop :=
  ∀ (s : State) (idx : BitVec 10) (data : Word), stBit s 0 = false →
    idx.toNat * 4 = 0x000 ∨ idx.toNat * 4 = 0x010 ∨ 0x044 ≤ idx.toNat * 4 →
    exec (.regWrite idx data) s = .next s

/-- R240: while idle, a write of STATUS clears exactly the bits 1, 2, 6, 7 and 8 that DATA has set, and zeroes ERRCODE
exactly when it writes 1 to ERR. -/
def Obligations.StatusWriteClearsFlags : Prop :=
  ∀ (s : State) (data : Word), stBit s 0 = false →
    ∃ t, exec (.regWrite 3#10 data) s = .next t ∧ onlyStatusErrcode s t
      ∧ (∀ i, stBit t i
          = if (i = 1 ∨ i = 2 ∨ i = 6 ∨ i = 7 ∨ i = 8) ∧ data.getLsbD i = true then false else stBit s i)
      ∧ t.regs.errcode = if data.getLsbD 2 = true then 0#32 else s.regs.errcode

/-- R26: while busy, a write to any offset sets WBUSY (bit 8) and changes nothing else, but for the exact SOFT_RESET word
written to CMD, which is performed. -/
def Obligations.BusyWriteOnlySetsWbusy : Prop :=
  ∀ (s : State) (idx : BitVec 10) (data : Word), stBit s 0 = true →
    (¬ (idx = 2#10 ∧ data = 0x0000000F#32) →
      ∃ t, exec (.regWrite idx data) s = .next t ∧ onlyStatus s t
        ∧ ∀ i, stBit t i = if i = 8 then true else stBit s i)
    ∧ exec (.regWrite 2#10 0x0000000F#32) s = exec .softReset s

/-- R241: while idle, a read hands the host the value of the register whose offset in the map is IDX * 4, which is 0 for CMD,
and 0 for an offset that is no register's; it changes nothing else. -/
def Obligations.IdleReadReturnsTheValue : Prop :=
  ∀ (s : State) (idx : BitVec 10), stBit s 0 = false →
    ∃ t, exec (.regRead idx) s = .next t ∧ t = s.setReadData t.readData
      ∧ (∀ x, mapOffset x = idx.toNat * 4 → t.readData = s.regs.get x) ∧ s.regs.get .cmd = 0#32
      ∧ ((∀ x, mapOffset x ≠ idx.toNat * 4) → t.readData = 0#32)

/-- R47, R241: while busy with PARSE or RUN a read of a latched or derived register, and with SAMPLE or RUN one of MIDDLE,
may return any value; every other read returns the register's value, and a read of an offset that is no register's
returns 0. No read changes a register, memory or the pending command. That an open read draws a fresh free word, and
that only those reads do, is log entry 22. -/
def Obligations.BusyReadReturnsValueWhereSpecified : Prop :=
  ∀ (s : State) (w : Word) (idx : BitVec 10), stBit s 0 = true → s.pending = some w →
    ∃ t, exec (.regRead idx) s = .next t
      ∧ t = (s.setReadData t.readData).setDraws t.draws
      ∧ (∀ x, mapOffset x = idx.toNat * 4 →
          ¬ ((w = 1#32 ∨ w = 4#32) ∧ parseMayWrite x) → ¬ ((w = 3#32 ∨ w = 4#32) ∧ ∃ c, x = .middle c) →
          t.readData = s.regs.get x ∧ t.draws = s.draws)
      ∧ ((∀ x, mapOffset x ≠ idx.toNat * 4) → t.readData = 0#32 ∧ t.draws = s.draws)

/-- R242: issue. A write of CMD while idle performs SOFT_RESET for the word 0x0000000F; any other word sets BUSY and CUR_OP,
is kept as pending, clears DONE, ERR and ERRCODE, clears the validity flags of what the command replaces, and leaves
UFLOW, DIV0, WBUSY and all else. -/
def Obligations.IssueAcceptsTheWord : Prop :=
  ∀ (s : State) (w : Word), stBit s 0 = false →
    (w = 0x0000000F#32 → exec (.regWrite 2#10 w) s = exec .softReset s)
    ∧ (w ≠ 0x0000000F#32 → ∃ t, exec (.regWrite 2#10 w) s = .next t
      ∧ t = (s.setRegs ((s.regs.setStatus t.regs.status).setErrcode 0#32)).setPending (some w)
      ∧ stBit t 0 = true ∧ stBit t 1 = false ∧ stBit t 2 = false
      ∧ stBit t 3 = (if w = 1#32 ∨ w = 4#32 then false else stBit s 3)
      ∧ stBit t 4 = (if w = 1#32 ∨ w = 2#32 ∨ w = 4#32 then false else stBit s 4)
      ∧ stBit t 5 = (if w = 1#32 ∨ w = 2#32 ∨ w = 3#32 ∨ w = 4#32 then false else stBit s 5)
      ∧ (∀ i, (6 ≤ i ∧ i ≤ 11) ∨ 16 ≤ i → stBit t i = stBit s i)
      ∧ t.regs.status.extractLsb' 12 4 = w.extractLsb' 0 4)

/-! ## Reset -/

/-- R300: what reset leaves in the registers, with FMT_CODES and ORDER_CODES at the OPEN parameters, the bits [31:24] of
FMT_CODES 0, nothing pending and the interrupt line low. -/
def Obligations.ResetLeavesResetValues : Prop :=
  let r := State.reset.regs
  r.get .id = 0x4C534331#32 ∧ r.ctrl = 0#32 ∧ r.status = 0#32 ∧ r.errcode = 0#32 ∧ r.blackLevel = 16#32
    ∧ r.srcBase = 0#32 ∧ r.srcLen = 0#32 ∧ r.hdrOff = 0xB0#32 ∧ r.pixOff = 0x8000#32
    ∧ r.fmtCodes.extractLsb' 0 24 = Config.resetFmtCodes ∧ r.fmtCodes.extractLsb' 24 8 = 0#8
    ∧ r.orderCodes = Config.resetOrderCodes ∧ r.gtBase = 0#32
    ∧ (∀ c, r.planeBase c = 0#32 ∧ r.middle c = 0#32) ∧ (∀ i, r.hdrName i = 0#32)
    ∧ r.hdrDim = 0#32 ∧ r.hdrPad = 0#32 ∧ r.hdrFmt = 0#32 ∧ r.hdrBayer = 0#32 ∧ r.stride = 0#32
    ∧ r.chDim = 0#32 ∧ r.gridDim = 0#32 ∧ r.bayerOrder = 0#32
    ∧ State.reset.pending = none ∧ State.reset.irq = false

/-- R245, R300: SOFT_RESET puts every register at its reset value and leaves no command pending. Memory is left as it is
while idle, and while busy changes only inside the aborted command's write footprint. The host's own state stays.
That clause is the model's (log entry 15), as is the extent of the footprint (log entry 9). -/
def Obligations.SoftResetResetsTheBlock : Prop :=
  ∀ s : State, ∃ t, exec .softReset s = .next t ∧ t.regs = State.reset.regs ∧ t.pending = none
    ∧ (stBit s 0 = false → t = (s.setRegs State.reset.regs).setPending none)
    ∧ (∀ a, (∀ g ∈ s.runningWrites, outside g.base g.len a) → t.mem.read a = s.mem.read a)
    ∧ t.script = s.script ∧ t.line = s.line ∧ t.schedule = s.schedule ∧ t.readData = s.readData
    ∧ t.loadData = s.loadData

/-- R263, R26: the word 0x0000000F written to CMD is performed at the write itself, idle or busy: its whole effect is
SOFT_RESET's. -/
def Obligations.SoftResetWordIsPerformedAtTheWrite : Prop :=
  ∀ s : State, exec (.regWrite 2#10 0x0000000F#32) s = exec .softReset s

/-- The reset input has the effect of SOFT_RESET, whether or not the block is busy (R300, R303). The reset as the head of
the schedule is the model's choice (log entry 5), and that the host's script, line and data stay is its reading (log
entry 15). -/
def Obligations.ResetInputActsAsSoftReset : Prop :=
  ∀ (s : State) (q : List Turn), s.schedule = .reset :: q → step s = exec .softReset (s.setSchedule q)

/-! ## NOP and ILLEGAL -/

/-- R243, R270: NOP's completion sets DONE and clears BUSY, and changes nothing else; the interrupt line then shows
DONE if it is enabled (R271). -/
def Obligations.NopCompletesWithDone : Prop :=
  ∀ s : State, ∃ t, exec .nop s = .next t ∧ onlyStatus s t
    ∧ (∀ i, stBit t i = if i = 1 then true else if i = 0 then false else stBit s i)
    ∧ (stBit s 2 = false → t.irq = s.regs.ctrl.getLsbD 0)

/-- R246: an ILLEGAL word of either kind completes with ERR and ERRCODE = OP, OP, 9, and changes nothing else; the
interrupt line then shows ERR if it is enabled (R271). -/
def Obligations.IllegalWordsCompleteWithError : Prop :=
  ∀ (s : State) (rsv : BitVec 28) (op : BitVec 4),
    (∃ t, exec (.illegalOpcode op) s = .next t ∧ endsInError s t op op 9#8
      ∧ (stBit s 1 = false → t.irq = s.regs.ctrl.getLsbD 1))
    ∧ ∃ t, exec (.illegalBits rsv op) s = .next t ∧ endsInError s t op op 9#8
      ∧ (stBit s 1 = false → t.irq = s.regs.ctrl.getLsbD 1)

/-! ## PARSE -/

/-- R153, R152: on a readable header record whose codes, order and geometry agree, PARSE completes with HDR_VALID and DONE,
the header and what is derived from it latched; no other register but STATUS, no memory and nothing else changes. -/
def Obligations.ParseLatchesAValidHeader : Prop :=
  ∀ (s : State) (k : Nat), headerReadable s → formatAgrees s → orderFound s k → geometryAgrees s →
    ∃ t, exec .parse s = .next t ∧ latchedFrom s t ∧ onlyRegs s t
      ∧ (∀ i, stBit t i = if i = 1 ∨ i = 3 then true else if i = 0 then false else stBit s i)
      ∧ ∀ x, x ≠ Reg.status → ¬ parseMayWrite x → t.regs.get x = s.regs.get x

/-- R151, R145: the first check that fails decides the error. Before the latch (source range, magic, header range) nothing
but STATUS and ERRCODE changes. -/
def Obligations.ParseFailsBeforeTheLatch : Prop :=
  ∀ s : State, ¬ headerReadable s →
    ∃ t, exec .parse s = .next t ∧ endsInError s t 1#4 1#4
      (if 2 ^ 32 < src s + len s then 5#8
       else if len s < 4 then 1#8
       else if (s.mem.read (src s)).toNat ≠ 0x42 ∨ (s.mem.read (src s + 1)).toNat ≠ 0x52
          ∨ (s.mem.read (src s + 2)).toNat ≠ 0x43 ∨ (s.mem.read (src s + 3)).toNat ≠ 0x4D then 1#8
       else 5#8)

/-- R145, R151: with the header readable, its fields are latched even where a later check fails; the error is FORMAT, else
ORDER, else GEOM, and HDR_VALID is not set. -/
def Obligations.ParseFailsAfterTheLatch : Prop :=
  ∀ s : State, headerReadable s → ¬ (formatAgrees s ∧ (∃ k, orderFound s k) ∧ geometryAgrees s) →
    ∃ t, exec .parse s = .next t ∧ latchedFrom s t ∧ onlyRegs s t ∧ errBits s t
      ∧ (∀ x, x ≠ Reg.status → x ≠ Reg.errcode → ¬ parseMayWrite x → t.regs.get x = s.regs.get x)
      ∧ (¬ formatAgrees s → t.regs.errcode = 0x00001102#32)
      ∧ (formatAgrees s → (∀ k, ¬ orderFound s k) → t.regs.errcode = 0x00001103#32)
      ∧ (formatAgrees s → (∃ k, orderFound s k) → t.regs.errcode = 0x00001104#32)

/-- R147: the stride is the least multiple of 32 that holds the bytes of the packed line, a partial group counted whole. -/
def Obligations.StrideIsLeastMultiple : Prop :=
  ∀ w pr : Nat, strideOf w pr % 32 = 0 ∧ (w + pr) * 5 ≤ 4 * strideOf w pr
    ∧ ∀ m, m % 32 = 0 → (w + pr) * 5 ≤ 4 * m → strideOf w pr ≤ m

/-! ## UNPACK -/

/-- R170, R122: the four pixels of a RAW10 group, pixel 0's two low bits in bits [7:6] of the fifth byte. -/
def Obligations.GroupBitsAreMsbFirst : Prop :=
  ∀ b0 b1 b2 b3 b4 : Byte,
    (unpack5 b0 b1 b2 b3 b4).1.toNat = 4 * b0.toNat + b4.toNat / 64
    ∧ (unpack5 b0 b1 b2 b3 b4).2.1.toNat = 4 * b1.toNat + b4.toNat / 16 % 4
    ∧ (unpack5 b0 b1 b2 b3 b4).2.2.1.toNat = 4 * b2.toNat + b4.toNat / 4 % 4
    ∧ (unpack5 b0 b1 b2 b3 b4).2.2.2.toNat = 4 * b3.toNat + b4.toNat % 4

/-- R178: in range, the correction does not decrease in r, is 0 at r = b, 1023 at r = 1023, never above 1023, and copies
r for b = 0. With clamping no corrected sample is above 1023. -/
def Obligations.BlackLevelCorrectionLaws : Prop :=
  ∀ b : Nat, b ≤ 1022 → ∀ m : UflowMode,
    (∀ r r', b ≤ r → r ≤ r' → r' ≤ 1023 → (corr r b m).toNat ≤ (corr r' b m).toNat
      ∧ (corr r' b m).toNat ≤ 1023)
    ∧ corr b b m = 0#16 ∧ corr 1023 b m = 1023#16 ∧ (∀ r, r ≤ 1023 → corr r 0 m = BitVec.ofNat 16 r)
    ∧ ∀ r, r ≤ 1023 → (corr r b .clamp).toNat ≤ 1023

/-- R174 to R176: below the black level, clamp gives 0, wrap the low 16 bits of the unsigned 32-bit quotient, signed the low
16 bits of the quotient truncated toward zero, which lies in 0xFC03 .. 0xFFFF for b up to 511. -/
def Obligations.UnderflowFollowsItsMode : Prop :=
  ∀ r b : Nat, r < b → b ≤ 1022 →
    corr r b .clamp = 0#16
    ∧ (corr r b .wrap).toNat = (2 ^ 32 - (b - r)) * 1023 % 2 ^ 32 / (1023 - b) % 2 ^ 16
    ∧ (((corr r b .signed).toNat : Int) + ((b - r) * 1023 / (1023 - b) : Nat)) % 2 ^ 16 = 0
    ∧ (b ≤ 511 → 0xFC03 ≤ (corr r b .signed).toNat)

/-- R184: with a valid header and every check met, UNPACK completes with DONE and PLANES_VALID, UFLOW set if a pixel lies
below the black level; sample (r, k) of plane c is the corrected pixel (2k + (c & 1), 2r + (c >> 1)), low byte first; no
byte outside the four plane regions, no register but STATUS and nothing else changes. -/
def Obligations.UnpackWritesCorrectedPlanes : Prop :=
  ∀ s : State, stBit s 3 = true → mode s ≠ 3 → unpackFits s (imgW s) (imgH s) s.regs.stride.toNat →
    ∃ t, exec .unpack s = .next t
      ∧ t = (s.setRegs (s.regs.setStatus t.regs.status)).setMem t.mem
      ∧ (∀ i, i ≠ 6 → stBit t i = if i = 1 ∨ i = 4 then true else if i = 0 then false else stBit s i)
      ∧ (stBit t 6 = true ↔ stBit s 6 = true
          ∨ ∃ x y, x < imgW s ∧ y < imgH s ∧ rawAt s s.regs.stride.toNat x y < bl s)
      ∧ (∀ (c : Fin 4) (r k : Nat), r < imgH s / 2 → k < imgW s / 2 →
          sampleOf t (imgW s / 2) c r k
            = corrected (mode s) (rawAt s s.regs.stride.toNat (2 * k + c.val % 2) (2 * r + c.val / 2)) (bl s))
      ∧ ∀ a, (∀ c : Fin 4, outside (plane s c) (2 * (imgW s / 2) * (imgH s / 2)) a) →
          t.mem.read a = s.mem.read a

/-- R262: UNPACK's checks in order: SEQ, BLC_CFG, BOUNDS of the source range, of the last scanline byte and of the planes,
OVERLAP; the first that fails is reported, and nothing but STATUS and ERRCODE changes. -/
def Obligations.UnpackReportsTheFirstError : Prop :=
  ∀ s : State,
    (stBit s 3 = false → ∃ t, exec .unpack s = .next t ∧ endsInError s t 2#4 2#4 8#8)
    ∧ (stBit s 3 = true → bl s = 1023 → ∃ t, exec .unpack s = .next t ∧ endsInError s t 2#4 2#4 7#8)
    ∧ (0 < imgH s → stBit s 3 = true → bl s ≠ 1023 →
        2 ^ 32 < src s + len s
          ∨ len s < s.regs.pixOff.toNat + (imgH s - 1) * s.regs.stride.toNat + 5 * (imgW s / 4)
          ∨ (∃ c : Fin 4, 2 ^ 32 < plane s c + 2 * (imgW s / 2) * (imgH s / 2)) →
        ∃ t, exec .unpack s = .next t ∧ endsInError s t 2#4 2#4 5#8)
    ∧ (0 < imgH s → stBit s 3 = true → bl s ≠ 1023 → src s + len s ≤ 2 ^ 32 →
        s.regs.pixOff.toNat + (imgH s - 1) * s.regs.stride.toNat + 5 * (imgW s / 4) ≤ len s →
        (∀ c : Fin 4, plane s c + 2 * (imgW s / 2) * (imgH s / 2) ≤ 2 ^ 32) →
        ¬ planesApart s (2 * (imgW s / 2) * (imgH s / 2)) →
        ∃ t, exec .unpack s = .next t ∧ endsInError s t 2#4 2#4 6#8)

/-! ## SAMPLE -/

/-- R206, R207: the gain is the truncated ratio clipped to 32 .. 255; over a zero sum it is 255, or 32 when the numerator
is 0 too. -/
def Obligations.GainIsClippedRatio : Prop :=
  ∀ num den : Nat,
    (0 < den → num < 32 * den → gain num den = 32)
    ∧ (0 < den → 256 * den ≤ num → gain num den = 255)
    ∧ (∀ g, 32 ≤ g → g ≤ 255 → g * den ≤ num → num < (g + 1) * den → gain num den = g)
    ∧ (0 < num → gain num 0 = 255) ∧ gain 0 0 = 32

/-- R200: the physical plane of logical channel l under order index IDX, as the table prints it. -/
def Obligations.OrderTableIsThePermutation : Prop :=
  (List.finRange 4).map (fun l => physicalPlane l 0#2) = [0, 1, 2, 3]
    ∧ (List.finRange 4).map (fun l => physicalPlane l 1#2) = [1, 0, 3, 2]
    ∧ (List.finRange 4).map (fun l => physicalPlane l 2#2) = [2, 3, 0, 1]
    ∧ (List.finRange 4).map (fun l => physicalPlane l 3#2) = [3, 2, 1, 0]

/-- R212: with both validity flags and every check met, SAMPLE completes with DONE and GRID_VALID; MIDDLEc is the truncated
mean of plane c's centre patch times 32; the gain-table byte of logical channel l, grid row kr, grid column j is the
clipped ratio of R204 to R207 over plane l ^ IDX; DIV0 is set if a sum is zero; no byte outside the table, no other
register but STATUS and nothing else changes. -/
def Obligations.SampleWritesTheGainTable : Prop :=
  ∀ s : State, stBit s 3 = true → stBit s 4 = true → sampleFits s (chW s) (chH s) →
    grW s = (chW s + 31) / 32 → grH s = (chH s + 31) / 32 →
    ∃ t, exec .sample s = .next t ∧ t = (s.setRegs t.regs).setMem t.mem
      ∧ (∀ x, x ≠ Reg.status → (∀ c, x ≠ Reg.middle c) → t.regs.get x = s.regs.get x)
      ∧ (∀ c, (t.regs.middle c).toNat = brightness s c ∧ brightness s c ≤ 2097120)
      ∧ (∀ i, i ≠ 7 → stBit t i = if i = 1 ∨ i = 5 then true else if i = 0 then false else stBit s i)
      ∧ (stBit t 7 = true
          ↔ stBit s 7 = true ∨ ∃ l kr j, kr < grH s ∧ j < grW s ∧ gridSum s (channelPlane s l) kr j = 0)
      ∧ (∀ (l : Fin 4) (kr j : Nat), kr < grH s → j < grW s →
          byteAt t (s.regs.gtBase.toNat + l.val * grW s * grH s + kr * grW s + j)
            = gain (gridNum s (channelPlane s l) j) (gridSum s (channelPlane s l) kr j))
      ∧ ∀ a, outside s.regs.gtBase.toNat (4 * grW s * grH s) a → t.mem.read a = s.mem.read a

/-- R262: SAMPLE's checks in order: SEQ, BOUNDS of the planes and of the table, OVERLAP; the first that fails is reported, and
nothing but STATUS and ERRCODE changes. -/
def Obligations.SampleReportsTheFirstError : Prop :=
  ∀ s : State,
    (stBit s 3 = false ∨ stBit s 4 = false →
      ∃ t, exec .sample s = .next t ∧ endsInError s t 3#4 3#4 8#8)
    ∧ (stBit s 3 = true → stBit s 4 = true →
        (∃ c : Fin 4, 2 ^ 32 < plane s c + 2 * chW s * chH s)
          ∨ 2 ^ 32 < s.regs.gtBase.toNat + 4 * grW s * grH s →
        ∃ t, exec .sample s = .next t ∧ endsInError s t 3#4 3#4 5#8)
    ∧ (stBit s 3 = true → stBit s 4 = true → (∀ c : Fin 4, plane s c + 2 * chW s * chH s ≤ 2 ^ 32) →
        s.regs.gtBase.toNat + 4 * grW s * grH s ≤ 2 ^ 32 →
        (∃ c : Fin 4, overlap s.regs.gtBase.toNat (4 * grW s * grH s) (plane s c) (2 * chW s * chH s))
          ∨ overlap s.regs.gtBase.toNat (4 * grW s * grH s) (src s) (len s) →
        ∃ t, exec .sample s = .next t ∧ endsInError s t 3#4 3#4 6#8)

/-- R215: over a plane whose samples are all v, every gain of a logical channel fed by it is 32, for v = 0 too. -/
def Obligations.UniformPlaneGivesUnityGain : Prop :=
  ∀ (s t : State) (c : Fin 4) (v : Nat), sampleFits s (chW s) (chH s) →
    grW s = (chW s + 31) / 32 → grH s = (chH s + 31) / 32 →
    (∀ r k, r < chH s → k < chW s → sampleOf s (chW s) c r k = v) →
    stBit s 3 = true → stBit s 4 = true → exec .sample s = .next t →
    ∀ (l : Fin 4) (kr j : Nat), channelPlane s l = c →
      kr < grH s → j < grW s →
      byteAt t (s.regs.gtBase.toNat + l.val * grW s * grH s + kr * grW s + j) = 32

/-! ## RUN -/

/-- R244: on a valid capture whose planes and table fit, RUN completes, and leaves exactly the state that PARSE, UNPACK and
SAMPLE leave one after the other: DONE and all three validity flags set. -/
def Obligations.RunPerformsTheThreePhases : Prop :=
  ∀ (s : State) (k : Nat), headerReadable s → formatAgrees s → orderFound s k → geometryAgrees s →
    unpackFits s (hdr16 s 32) (hdr16 s 34) (strideValue (hdr16 s 32) (hdr16 s 36)) →
    sampleFits s (hdr16 s 32 / 2) (hdr16 s 34 / 2) →
    ∃ t1 t2 t, exec .parse s = .next t1 ∧ exec .unpack t1 = .next t2 ∧ exec .sample t2 = .next t
      ∧ exec .run s = .next t ∧ stBit t 0 = false ∧ stBit t 1 = true ∧ stBit t 3 = true
      ∧ stBit t 4 = true ∧ stBit t 5 = true

/-- R244, R265: RUN stops at the first phase that fails: its state is the one that phase's own command leaves, with ISSUED = 4
and PHASE the failing phase, DONE as it was, and the results of the earlier phases kept. -/
def Obligations.RunStopsAtTheFirstError : Prop :=
  ∀ s t1 : State, stBit s 3 = false → stBit s 4 = false → stBit s 5 = false → exec .parse s = .next t1 →
    (stBit t1 3 = false →
      exec .run s = .next (t1.setErrcode (0#16 ++ 4#4 ++ 1#4 ++ t1.regs.errcode.extractLsb' 0 8)))
    ∧ ∀ t2, stBit t1 3 = true → exec .unpack t1 = .next t2 →
      (stBit t2 4 = false →
        exec .run s = .next ((t2.setErrcode (0#16 ++ 4#4 ++ 2#4 ++ t2.regs.errcode.extractLsb' 0 8)).setFlag
          .done (stBit s 1)))
      ∧ ∀ t3, stBit t2 4 = true → exec .sample t2 = .next t3 → stBit t3 5 = false →
        exec .run s = .next ((t3.setErrcode (0#16 ++ 4#4 ++ 3#4 ++ t3.regs.errcode.extractLsb' 0 8)).setFlag
          .done (stBit s 1))

/-! ## The whole machine -/

/-- The invariant holds at reset. -/
def Obligations.ResetMeetsTheInvariant : Prop := Inv State.reset

/-- Every step keeps the invariant: the memory's canonical form, reserved bits 0 (R20), DONE and ERR never both 1 (R25), ERR
only while idle (R268), a pending word while busy (R48), and a legal latched geometry with HDR_VALID (R149, R152). -/
def Obligations.StepKeepsTheInvariant : Prop :=
  ∀ s t : State, Inv s → step s = .next t → Inv t

/-- No step faults from a state that meets the invariant, and it refuses only what the host must not do (R101, R306):
whatever the command and its operands, the block answers. The refusals by name are the model's (log entries 10 and 19),
as are the faults that the invariant rules out (log entry 11). -/
def Obligations.StepNeverFaults : Prop :=
  ∀ s : State, Inv s → safeOutcome (step s)

/-- R260, R270: the completion step of a pending command clears BUSY and sets exactly one of DONE and ERR; ERRCODE.CODE is not 0
exactly when it is ERR. That the engine goes first with nothing scheduled is the model's choice (log entry 5). -/
def Obligations.CompletionEndsTheCommand : Prop :=
  ∀ s : State, Inv s → stBit s 0 = true → s.schedule = [] →
    ∃ t, step s = .next t ∧ stBit t 0 = false ∧ (stBit t 1 = !stBit t 2)
      ∧ (stBit t 2 = true ↔ t.regs.errcode.extractLsb' 0 8 ≠ 0#8)
      ∧ t.regs.status.extractLsb' 12 4 = s.regs.status.extractLsb' 12 4

/-- R247: no command can hang. From a busy state, whatever the order of the events, the block is idle within one step more
than there are events scheduled, unless the host makes a move it must not make. The list of events is the model's choice
(log entry 5), as are the refusals of those moves by name (log entries 10 and 19). -/
def Obligations.NoCommandHangs : Prop :=
  ∀ s : State, Inv s → stBit s 0 = true →
    ∃ k, k ≤ s.schedule.length + 1 ∧
      ((∃ t, Host.Core.run Sys2Proof.core k s = .next t ∧ stBit t 0 = false)
        ∨ ∃ r, Host.Core.run Sys2Proof.core k s = .refused r ∧ hostBreach r)

/-- R80: an instruction that completes leaves every byte outside its write footprint as it was; NOP, PARSE, an ILLEGAL word
and a register read store nothing, and a register write stores only where it aborts a command (R245).
The footprint of a failing command is log entry 9. -/
def Obligations.MemoryOutsideTheFootprintIsKept : Prop :=
  ∀ (i : Instr) (s t : State) (a : Nat), exec i s = .next t →
    (∀ g ∈ storesTo i s, outside g.base g.len a) → t.mem.read a = s.mem.read a

/-- R80: where the checks pass, UNPACK's write footprint is exactly the four plane regions, SAMPLE's exactly the gain-table
region, and RUN's their union, with the geometry its header gives (the planes alone where SAMPLE then fails); a command
that ends in an error before its first write has none, and none ever has more. NOP, PARSE, SOFT_RESET and ILLEGAL words
have none; the running footprint is that of the pending command. What a failing command's footprint is, is log entry 9. -/
def Obligations.FootprintsAreTheRegionsOfTheTable : Prop :=
  ∀ (s : State) (g : Region),
    (stBit s 3 = true → unpackFits s (imgW s) (imgH s) s.regs.stride.toNat →
      (g ∈ writeFootprint .unpack s ↔ ∃ c, g = planeReg s (imgW s / 2) (imgH s / 2) c))
    ∧ (stBit s 3 = true → stBit s 4 = true → sampleFits s (chW s) (chH s) →
        grW s = (chW s + 31) / 32 → grH s = (chH s + 31) / 32 →
        (g ∈ writeFootprint .sample s ↔ g = tableReg s (grW s) (grH s)))
    ∧ (runReachesSample s → sampleFits s (hdr16 s 32 / 2) (hdr16 s 34 / 2) →
        (g ∈ writeFootprint .run s ↔
          (∃ c, g = planeReg s (hdr16 s 32 / 2) (hdr16 s 34 / 2) c)
            ∨ g = tableReg s ((hdr16 s 32 / 2 + 31) / 32) ((hdr16 s 34 / 2 + 31) / 32)))
    ∧ (runReachesSample s → ¬ sampleFits s (hdr16 s 32 / 2) (hdr16 s 34 / 2) →
        (g ∈ writeFootprint .run s ↔ ∃ c, g = planeReg s (hdr16 s 32 / 2) (hdr16 s 34 / 2) c))
    ∧ (g ∈ writeFootprint .unpack s → ∃ c, g = planeReg s (imgW s / 2) (imgH s / 2) c)
    ∧ (g ∈ writeFootprint .sample s → g = tableReg s (grW s) (grH s))
    ∧ (g ∈ writeFootprint .run s → headerReadable s
        ∧ ((∃ c, g = planeReg s (hdr16 s 32 / 2) (hdr16 s 34 / 2) c)
          ∨ g = tableReg s ((hdr16 s 32 / 2 + 31) / 32) ((hdr16 s 34 / 2 + 31) / 32)))
    ∧ (∀ i t, i = .unpack ∨ i = .sample → stBit s 2 = false → exec i s = .next t → stBit t 2 = true →
        g ∉ writeFootprint i s)
    ∧ (∀ t, stBit s 4 = false → exec .run s = .next t → stBit t 4 = false → g ∉ writeFootprint .run s)
    ∧ (∀ i rsv op, i ∈ [Instr.nop, .parse, .softReset, .illegalOpcode op, .illegalBits rsv op] →
        g ∉ writeFootprint i s)
    ∧ (∀ w, stBit s 0 = true → s.pending = some w → s.runningWrites = writeFootprint (decodeCommand w) s)
    ∧ (stBit s 0 = false → s.runningWrites = [])

/-- R80, R181: PARSE's read footprint is the magic tag and the header record, once its source is in range and 4 bytes long;
UNPACK's, where its checks pass, the H scanlines' pixel bytes, SAMPLE's the four planes, and RUN's the union of its
phases'. A command that ends in an error before its first access has none, nor have NOP, SOFT_RESET and ILLEGAL words;
the running footprint is that of the pending command. What a failing command's footprint is, is log entry 9. -/
def Obligations.ReadFootprintsAreTheRegionsOfTheTable : Prop :=
  ∀ (s : State) (g : Region),
    (g ∈ readFootprint .parse s ↔ (src s + len s ≤ 2 ^ 32 ∧ 4 ≤ len s) ∧ headerReg s g)
    ∧ (stBit s 3 = true → unpackFits s (imgW s) (imgH s) s.regs.stride.toNat →
        (g ∈ readFootprint .unpack s ↔ ∃ y, y < imgH s ∧ g = scanline s s.regs.stride.toNat (imgW s) y))
    ∧ (stBit s 3 = true → stBit s 4 = true → sampleFits s (chW s) (chH s) →
        grW s = (chW s + 31) / 32 → grH s = (chH s + 31) / 32 →
        (g ∈ readFootprint .sample s ↔ ∃ c, g = planeReg s (chW s) (chH s) c))
    ∧ (runReachesSample s → sampleFits s (hdr16 s 32 / 2) (hdr16 s 34 / 2) →
        (g ∈ readFootprint .run s ↔ headerReg s g
          ∨ (∃ y, y < hdr16 s 34
              ∧ g = scanline s (strideValue (hdr16 s 32) (hdr16 s 36)) (hdr16 s 32) y)
          ∨ ∃ c, g = planeReg s (hdr16 s 32 / 2) (hdr16 s 34 / 2) c))
    ∧ (runReachesSample s → ¬ sampleFits s (hdr16 s 32 / 2) (hdr16 s 34 / 2) →
        (g ∈ readFootprint .run s ↔ headerReg s g
          ∨ ∃ y, y < hdr16 s 34
              ∧ g = scanline s (strideValue (hdr16 s 32) (hdr16 s 36)) (hdr16 s 32) y))
    ∧ (∀ i t, i = .unpack ∨ i = .sample → stBit s 2 = false → exec i s = .next t → stBit t 2 = true →
        g ∉ readFootprint i s)
    ∧ (∀ t, stBit s 4 = false → exec .run s = .next t → stBit t 4 = false →
        (g ∈ readFootprint .run s ↔ g ∈ readFootprint .parse s))
    ∧ (∀ i rsv op, i ∈ [Instr.nop, .softReset, .illegalOpcode op, .illegalBits rsv op] →
        g ∉ readFootprint i s)
    ∧ (∀ w, stBit s 0 = true → s.pending = some w → s.runningReads = readFootprint (decodeCommand w) s)
    ∧ (stBit s 0 = false → s.runningReads = [])

/-- R79, R265: a PARSE, UNPACK or SAMPLE that does not set DONE has written no memory. -/
def Obligations.ErroringPhaseWritesNoMemory : Prop :=
  ∀ (i : Instr) (s t : State), i = .parse ∨ i = .unpack ∨ i = .sample → stBit s 1 = false →
    exec i s = .next t → stBit t 1 = false → sameMemory s t

/-- No command but SOFT_RESET changes a configuration register (R26, R309) or CUR_OP (R270), and no command clears UFLOW,
DIV0 or WBUSY, which are sticky (R25). That the pending word stays after the completion is the model's choice (log
entry 14): R48 calls it meaningful only while busy. -/
def Obligations.CommandsKeepConfiguration : Prop :=
  ∀ (i : Instr) (s t : State), isPhaseCommand i → exec i s = .next t →
    (∀ x, x ∈ [Reg.ctrl, .blackLevel, .fmtCodes] ∨ wholeWritten x → t.regs.get x = s.regs.get x)
      ∧ t.pending = s.pending ∧ t.regs.status.extractLsb' 12 4 = s.regs.status.extractLsb' 12 4
      ∧ (stBit s 6 = true → stBit t 6 = true) ∧ (stBit s 7 = true → stBit t 7 = true)
      ∧ stBit t 8 = stBit s 8

/-- No instruction changes the host's program, its position, the order of the coming events or the byte its last load
returned: they are no state of the block (R48, R50, R248). That SOFT_RESET, also by an aborting write, leaves them is the
model's reading (log entry 15); the schedule and the loaded byte are fields of the model's own (log entries 5 and 20). -/
def Obligations.HostStateIsNotTheBlocks : Prop :=
  ∀ (i : Instr) (s t : State), exec i s = .next t →
    t.script = s.script ∧ t.line = s.line ∧ t.schedule = s.schedule ∧ t.loadData = s.loadData

/-- R70: the port reaches plain memory: a byte the host stores while idle is the byte it loads next, and every other byte
is kept. The accesses as script lines of one byte are the model's choice (log entries 5 and 20). -/
def Obligations.StoredByteIsLoaded : Prop :=
  ∀ (s : State) (a : Word) (v : Byte), s.schedule = [] → stBit s 0 = false →
    s.script[s.line]? = some (.store a v) → s.script[s.line + 1]? = some (.load a) →
    ∃ t u, step s = .next t ∧ step t = .next u ∧ u.loadData = v ∧ u.line = s.line + 2 ∧ u.regs = s.regs
      ∧ ∀ b, b ≠ a.toNat → u.mem.read b = s.mem.read b

/-- R83, R306: while a command runs, a host load outside its write footprint returns the byte memory holds and a host store
outside both footprints is performed; a store inside is a move the model does not give the host. The refusal by name and
the line's form are the model's (log entries 10 and 20), as are the host's turn (log entry 5) and what a failing
command's footprint is (log entry 9). A load inside is HostLoadInsideAFootprintGoesOn's (log entry 21). -/
def Obligations.HostAccessWhileBusy : Prop :=
  ∀ (s : State) (q : List Turn) (a : Word) (v : Byte), s.schedule = .host :: q →
    (s.script[s.line]? = some (.load a) → (∀ g ∈ s.runningWrites, outside g.base g.len a.toNat) →
      step s = .next (((s.setSchedule q).setLoadData (s.mem.read a.toNat)).setLine (s.line + 1)))
    ∧ (s.script[s.line]? = some (.store a v) →
        (∀ g ∈ s.runningReads ++ s.runningWrites, outside g.base g.len a.toNat) →
        ∃ t, step s = .next t ∧ t.mem.read a.toNat = v ∧ t.regs = s.regs
          ∧ ∀ b, b ≠ a.toNat → t.mem.read b = s.mem.read b)
    ∧ (s.script[s.line]? = some (.store a v) →
        (∃ g ∈ s.runningReads ++ s.runningWrites, ¬ outside g.base g.len a.toNat) →
        step s = .refused (.footprintRace a))

/-- R83: a host load inside the running command's write footprint goes on, to an unspecified value: the host's byte is the
next free one, and only it, the draws, the schedule and the host's line change; no register, no memory and no pending
word. That the byte is a fresh free value is log entry 21; the line's form and the turn are log entries 20 and 5, the
footprint of a failing command log entry 9. -/
def Obligations.HostLoadInsideAFootprintGoesOn : Prop :=
  ∀ (s : State) (q : List Turn) (a : Word), s.schedule = .host :: q → s.script[s.line]? = some (.load a) →
    (∃ g ∈ s.runningWrites, ¬ outside g.base g.len a.toNat) →
    ∃ t, step s = .next t ∧ t.loadData = Config.freeByte s.draws
      ∧ t = (((s.setSchedule q).setLoadData t.loadData).setDraws (s.draws + 1)).setLine (s.line + 1)

/-- R271: the interrupt line is high exactly when DONE or ERR is set and its enable is set. -/
def Obligations.InterruptLineFollowsStatus : Prop :=
  ∀ s : State, s.irq = true ↔
    (stBit s 1 = true ∧ s.regs.ctrl.getLsbD 0 = true) ∨ (stBit s 2 = true ∧ s.regs.ctrl.getLsbD 1 = true)
end

