-- ==== Sys2Proof/Laws/Decode.lean ====
section
/-! SUPPORT. The fields of an encoding read back, and an encoding is made of its fields (R100, R102). -/

namespace Sys2Proof

/-- Bits [31:4] of a command word made of its fields. -/
theorem command_rsv (rsv : BitVec 28) (op : BitVec 4) : BitVec.extractLsb' (n := 32) 4 28 (rsv ++ op) = rsv :=
  BitVec.extractLsb'_append_eq_left

/-- OP of a command word made of its fields. -/
theorem command_op (rsv : BitVec 28) (op : BitVec 4) : BitVec.extractLsb' (n := 32) 0 4 (rsv ++ op) = op :=
  BitVec.extractLsb'_append_eq_right

/-- A command word is its two fields. -/
theorem command_eta (w : Word) : (w.extractLsb' 4 28 ++ w.extractLsb' 0 4 : Word) = w :=
  (BitVec.extractLsb'_append_extractLsb'_eq_extractLsb' rfl).trans (BitVec.extractLsb'_eq_self)

/-- Which words spell the commands that issue, the footprints and the reads while busy look at (R103). -/
theorem decodeCommand_iff (w : Word) :
    (decodeCommand w = .parse ↔ w = 1#32) ∧ (decodeCommand w = .unpack ↔ w = 2#32)
      ∧ (decodeCommand w = .sample ↔ w = 3#32) ∧ (decodeCommand w = .run ↔ w = 4#32)
      ∧ (decodeCommand w = .softReset ↔ w = 15#32) := by
  unfold decodeCommand
  split_ifs <;> simp_all

variable (w : BitVec 1) (rsv : BitVec 21) (idx : BitVec 10) (data : Word)

/-- T[63] of a packet made of its fields. -/
theorem packet_w : BitVec.extractLsb' (n := 64) 63 1 (w ++ rsv ++ idx ++ data) = w :=
  (BitVec.extractLsb'_append_eq_of_le (by decide)).trans
    ((BitVec.extractLsb'_append_eq_of_le (by decide)).trans
      ((BitVec.extractLsb'_append_eq_of_le (by decide)).trans BitVec.extractLsb'_eq_self))

/-- T[62:42] of a packet made of its fields. -/
theorem packet_rsv : BitVec.extractLsb' (n := 64) 42 21 (w ++ rsv ++ idx ++ data) = rsv :=
  (BitVec.extractLsb'_append_eq_of_le (by decide)).trans
    ((BitVec.extractLsb'_append_eq_of_le (by decide)).trans BitVec.extractLsb'_append_eq_right)

/-- T[41:32] of a packet made of its fields. -/
theorem packet_idx : BitVec.extractLsb' (n := 64) 32 10 (w ++ rsv ++ idx ++ data) = idx :=
  (BitVec.extractLsb'_append_eq_of_le (by decide)).trans BitVec.extractLsb'_append_eq_right

/-- T[31:0] of a packet made of its fields. -/
theorem packet_data : BitVec.extractLsb' (n := 64) 0 32 (w ++ rsv ++ idx ++ data) = data :=
  BitVec.extractLsb'_append_eq_right

/-- A packet is its four fields. -/
theorem packet_eta (t : Packet) :
    (t.extractLsb' 63 1 ++ t.extractLsb' 42 21 ++ t.extractLsb' 32 10 ++ t.extractLsb' 0 32 : Packet) = t := by
  have h1 := BitVec.extractLsb'_append_extractLsb'_eq_extractLsb' (x := t) (start₂ := 63) (start₁ := 42)
    (len₁ := 21) (len₂ := 1) rfl
  have h2 := BitVec.extractLsb'_append_extractLsb'_eq_extractLsb' (x := t) (start₂ := 42) (start₁ := 32)
    (len₁ := 10) (len₂ := 22) rfl
  have h3 := BitVec.extractLsb'_append_extractLsb'_eq_extractLsb' (x := t) (start₂ := 32) (start₁ := 0)
    (len₁ := 32) (len₂ := 32) rfl
  rw [h1, h2, h3]
  exact BitVec.extractLsb'_eq_self

/-- A packet's number is the sum of its fields, each at its place. -/
theorem packet_toNat :
    BitVec.toNat (w := 64) (w ++ rsv ++ idx ++ data)
      = w.toNat * 2 ^ 63 + rsv.toNat * 2 ^ 42 + idx.toNat * 2 ^ 32 + data.toNat := by
  have hr := rsv.isLt
  have hi := idx.isLt
  have hd := data.isLt
  have h1 := BitVec.toNat_append w rsv
  have h2 := BitVec.toNat_append (w ++ rsv) idx
  have h3 := BitVec.toNat_append (w ++ rsv ++ idx) data
  rw [← Nat.shiftLeft_add_eq_or_of_lt hr, Nat.shiftLeft_eq] at h1
  rw [← Nat.shiftLeft_add_eq_or_of_lt hi, Nat.shiftLeft_eq, h1] at h2
  rw [← Nat.shiftLeft_add_eq_or_of_lt hd, Nat.shiftLeft_eq, h2] at h3
  refine Eq.trans h3 ?_
  omega

end Sys2Proof
end

