-- ==== Sys2Proof/Laws/State.lean ====
section
/-! SUPPORT. One lemma for each field under each named update, true by rfl, so that no proof unfolds an update. -/

namespace Sys2Proof.Machine

/-! ## Registers -/

@[simp] theorem Regs.setStatus_ctrl (r : Regs) (v : Word) : (r.setStatus v).ctrl = r.ctrl := rfl
@[simp] theorem Regs.setStatus_status (r : Regs) (v : Word) : (r.setStatus v).status = v := rfl
@[simp] theorem Regs.setStatus_errcode (r : Regs) (v : Word) : (r.setStatus v).errcode = r.errcode := rfl
@[simp] theorem Regs.setStatus_blackLevel (r : Regs) (v : Word) :
    (r.setStatus v).blackLevel = r.blackLevel := rfl
@[simp] theorem Regs.setStatus_srcBase (r : Regs) (v : Word) : (r.setStatus v).srcBase = r.srcBase := rfl
@[simp] theorem Regs.setStatus_srcLen (r : Regs) (v : Word) : (r.setStatus v).srcLen = r.srcLen := rfl
@[simp] theorem Regs.setStatus_hdrOff (r : Regs) (v : Word) : (r.setStatus v).hdrOff = r.hdrOff := rfl
@[simp] theorem Regs.setStatus_pixOff (r : Regs) (v : Word) : (r.setStatus v).pixOff = r.pixOff := rfl
@[simp] theorem Regs.setStatus_fmtCodes (r : Regs) (v : Word) : (r.setStatus v).fmtCodes = r.fmtCodes := rfl
@[simp] theorem Regs.setStatus_orderCodes (r : Regs) (v : Word) :
    (r.setStatus v).orderCodes = r.orderCodes := rfl
@[simp] theorem Regs.setStatus_planeBase0 (r : Regs) (v : Word) :
    (r.setStatus v).planeBase0 = r.planeBase0 := rfl
@[simp] theorem Regs.setStatus_planeBase1 (r : Regs) (v : Word) :
    (r.setStatus v).planeBase1 = r.planeBase1 := rfl
@[simp] theorem Regs.setStatus_planeBase2 (r : Regs) (v : Word) :
    (r.setStatus v).planeBase2 = r.planeBase2 := rfl
@[simp] theorem Regs.setStatus_planeBase3 (r : Regs) (v : Word) :
    (r.setStatus v).planeBase3 = r.planeBase3 := rfl
@[simp] theorem Regs.setStatus_gtBase (r : Regs) (v : Word) : (r.setStatus v).gtBase = r.gtBase := rfl
@[simp] theorem Regs.setStatus_hdrName0 (r : Regs) (v : Word) : (r.setStatus v).hdrName0 = r.hdrName0 := rfl
@[simp] theorem Regs.setStatus_hdrName1 (r : Regs) (v : Word) : (r.setStatus v).hdrName1 = r.hdrName1 := rfl
@[simp] theorem Regs.setStatus_hdrName2 (r : Regs) (v : Word) : (r.setStatus v).hdrName2 = r.hdrName2 := rfl
@[simp] theorem Regs.setStatus_hdrName3 (r : Regs) (v : Word) : (r.setStatus v).hdrName3 = r.hdrName3 := rfl
@[simp] theorem Regs.setStatus_hdrName4 (r : Regs) (v : Word) : (r.setStatus v).hdrName4 = r.hdrName4 := rfl
@[simp] theorem Regs.setStatus_hdrName5 (r : Regs) (v : Word) : (r.setStatus v).hdrName5 = r.hdrName5 := rfl
@[simp] theorem Regs.setStatus_hdrName6 (r : Regs) (v : Word) : (r.setStatus v).hdrName6 = r.hdrName6 := rfl
@[simp] theorem Regs.setStatus_hdrName7 (r : Regs) (v : Word) : (r.setStatus v).hdrName7 = r.hdrName7 := rfl
@[simp] theorem Regs.setStatus_hdrDim (r : Regs) (v : Word) : (r.setStatus v).hdrDim = r.hdrDim := rfl
@[simp] theorem Regs.setStatus_hdrPad (r : Regs) (v : Word) : (r.setStatus v).hdrPad = r.hdrPad := rfl
@[simp] theorem Regs.setStatus_hdrFmt (r : Regs) (v : Word) : (r.setStatus v).hdrFmt = r.hdrFmt := rfl
@[simp] theorem Regs.setStatus_hdrBayer (r : Regs) (v : Word) : (r.setStatus v).hdrBayer = r.hdrBayer := rfl
@[simp] theorem Regs.setStatus_stride (r : Regs) (v : Word) : (r.setStatus v).stride = r.stride := rfl
@[simp] theorem Regs.setStatus_chDim (r : Regs) (v : Word) : (r.setStatus v).chDim = r.chDim := rfl
@[simp] theorem Regs.setStatus_gridDim (r : Regs) (v : Word) : (r.setStatus v).gridDim = r.gridDim := rfl
@[simp] theorem Regs.setStatus_bayerOrder (r : Regs) (v : Word) :
    (r.setStatus v).bayerOrder = r.bayerOrder := rfl
@[simp] theorem Regs.setStatus_middle0 (r : Regs) (v : Word) : (r.setStatus v).middle0 = r.middle0 := rfl
@[simp] theorem Regs.setStatus_middle1 (r : Regs) (v : Word) : (r.setStatus v).middle1 = r.middle1 := rfl
@[simp] theorem Regs.setStatus_middle2 (r : Regs) (v : Word) : (r.setStatus v).middle2 = r.middle2 := rfl
@[simp] theorem Regs.setStatus_middle3 (r : Regs) (v : Word) : (r.setStatus v).middle3 = r.middle3 := rfl

@[simp] theorem Regs.setErrcode_ctrl (r : Regs) (v : Word) : (r.setErrcode v).ctrl = r.ctrl := rfl
@[simp] theorem Regs.setErrcode_status (r : Regs) (v : Word) : (r.setErrcode v).status = r.status := rfl
@[simp] theorem Regs.setErrcode_errcode (r : Regs) (v : Word) : (r.setErrcode v).errcode = v := rfl
@[simp] theorem Regs.setErrcode_blackLevel (r : Regs) (v : Word) :
    (r.setErrcode v).blackLevel = r.blackLevel := rfl
@[simp] theorem Regs.setErrcode_srcBase (r : Regs) (v : Word) : (r.setErrcode v).srcBase = r.srcBase := rfl
@[simp] theorem Regs.setErrcode_srcLen (r : Regs) (v : Word) : (r.setErrcode v).srcLen = r.srcLen := rfl
@[simp] theorem Regs.setErrcode_hdrOff (r : Regs) (v : Word) : (r.setErrcode v).hdrOff = r.hdrOff := rfl
@[simp] theorem Regs.setErrcode_pixOff (r : Regs) (v : Word) : (r.setErrcode v).pixOff = r.pixOff := rfl
@[simp] theorem Regs.setErrcode_fmtCodes (r : Regs) (v : Word) : (r.setErrcode v).fmtCodes = r.fmtCodes := rfl
@[simp] theorem Regs.setErrcode_orderCodes (r : Regs) (v : Word) :
    (r.setErrcode v).orderCodes = r.orderCodes := rfl
@[simp] theorem Regs.setErrcode_planeBase0 (r : Regs) (v : Word) :
    (r.setErrcode v).planeBase0 = r.planeBase0 := rfl
@[simp] theorem Regs.setErrcode_planeBase1 (r : Regs) (v : Word) :
    (r.setErrcode v).planeBase1 = r.planeBase1 := rfl
@[simp] theorem Regs.setErrcode_planeBase2 (r : Regs) (v : Word) :
    (r.setErrcode v).planeBase2 = r.planeBase2 := rfl
@[simp] theorem Regs.setErrcode_planeBase3 (r : Regs) (v : Word) :
    (r.setErrcode v).planeBase3 = r.planeBase3 := rfl
@[simp] theorem Regs.setErrcode_gtBase (r : Regs) (v : Word) : (r.setErrcode v).gtBase = r.gtBase := rfl
@[simp] theorem Regs.setErrcode_hdrName0 (r : Regs) (v : Word) : (r.setErrcode v).hdrName0 = r.hdrName0 := rfl
@[simp] theorem Regs.setErrcode_hdrName1 (r : Regs) (v : Word) : (r.setErrcode v).hdrName1 = r.hdrName1 := rfl
@[simp] theorem Regs.setErrcode_hdrName2 (r : Regs) (v : Word) : (r.setErrcode v).hdrName2 = r.hdrName2 := rfl
@[simp] theorem Regs.setErrcode_hdrName3 (r : Regs) (v : Word) : (r.setErrcode v).hdrName3 = r.hdrName3 := rfl
@[simp] theorem Regs.setErrcode_hdrName4 (r : Regs) (v : Word) : (r.setErrcode v).hdrName4 = r.hdrName4 := rfl
@[simp] theorem Regs.setErrcode_hdrName5 (r : Regs) (v : Word) : (r.setErrcode v).hdrName5 = r.hdrName5 := rfl
@[simp] theorem Regs.setErrcode_hdrName6 (r : Regs) (v : Word) : (r.setErrcode v).hdrName6 = r.hdrName6 := rfl
@[simp] theorem Regs.setErrcode_hdrName7 (r : Regs) (v : Word) : (r.setErrcode v).hdrName7 = r.hdrName7 := rfl
@[simp] theorem Regs.setErrcode_hdrDim (r : Regs) (v : Word) : (r.setErrcode v).hdrDim = r.hdrDim := rfl
@[simp] theorem Regs.setErrcode_hdrPad (r : Regs) (v : Word) : (r.setErrcode v).hdrPad = r.hdrPad := rfl
@[simp] theorem Regs.setErrcode_hdrFmt (r : Regs) (v : Word) : (r.setErrcode v).hdrFmt = r.hdrFmt := rfl
@[simp] theorem Regs.setErrcode_hdrBayer (r : Regs) (v : Word) : (r.setErrcode v).hdrBayer = r.hdrBayer := rfl
@[simp] theorem Regs.setErrcode_stride (r : Regs) (v : Word) : (r.setErrcode v).stride = r.stride := rfl
@[simp] theorem Regs.setErrcode_chDim (r : Regs) (v : Word) : (r.setErrcode v).chDim = r.chDim := rfl
@[simp] theorem Regs.setErrcode_gridDim (r : Regs) (v : Word) : (r.setErrcode v).gridDim = r.gridDim := rfl
@[simp] theorem Regs.setErrcode_bayerOrder (r : Regs) (v : Word) :
    (r.setErrcode v).bayerOrder = r.bayerOrder := rfl
@[simp] theorem Regs.setErrcode_middle0 (r : Regs) (v : Word) : (r.setErrcode v).middle0 = r.middle0 := rfl
@[simp] theorem Regs.setErrcode_middle1 (r : Regs) (v : Word) : (r.setErrcode v).middle1 = r.middle1 := rfl
@[simp] theorem Regs.setErrcode_middle2 (r : Regs) (v : Word) : (r.setErrcode v).middle2 = r.middle2 := rfl
@[simp] theorem Regs.setErrcode_middle3 (r : Regs) (v : Word) : (r.setErrcode v).middle3 = r.middle3 := rfl

@[simp] theorem State.latchedRegs_ctrl (s : State) : s.latchedRegs.ctrl = s.regs.ctrl := rfl
@[simp] theorem State.latchedRegs_status (s : State) : s.latchedRegs.status = s.regs.status := rfl
@[simp] theorem State.latchedRegs_errcode (s : State) : s.latchedRegs.errcode = s.regs.errcode := rfl
@[simp] theorem State.latchedRegs_blackLevel (s : State) : s.latchedRegs.blackLevel = s.regs.blackLevel := rfl
@[simp] theorem State.latchedRegs_srcBase (s : State) : s.latchedRegs.srcBase = s.regs.srcBase := rfl
@[simp] theorem State.latchedRegs_srcLen (s : State) : s.latchedRegs.srcLen = s.regs.srcLen := rfl
@[simp] theorem State.latchedRegs_hdrOff (s : State) : s.latchedRegs.hdrOff = s.regs.hdrOff := rfl
@[simp] theorem State.latchedRegs_pixOff (s : State) : s.latchedRegs.pixOff = s.regs.pixOff := rfl
@[simp] theorem State.latchedRegs_fmtCodes (s : State) : s.latchedRegs.fmtCodes = s.regs.fmtCodes := rfl
@[simp] theorem State.latchedRegs_orderCodes (s : State) : s.latchedRegs.orderCodes = s.regs.orderCodes := rfl
@[simp] theorem State.latchedRegs_planeBase0 (s : State) : s.latchedRegs.planeBase0 = s.regs.planeBase0 := rfl
@[simp] theorem State.latchedRegs_planeBase1 (s : State) : s.latchedRegs.planeBase1 = s.regs.planeBase1 := rfl
@[simp] theorem State.latchedRegs_planeBase2 (s : State) : s.latchedRegs.planeBase2 = s.regs.planeBase2 := rfl
@[simp] theorem State.latchedRegs_planeBase3 (s : State) : s.latchedRegs.planeBase3 = s.regs.planeBase3 := rfl
@[simp] theorem State.latchedRegs_gtBase (s : State) : s.latchedRegs.gtBase = s.regs.gtBase := rfl
@[simp] theorem State.latchedRegs_hdrName0 (s : State) : s.latchedRegs.hdrName0 = s.headerName 0 := rfl
@[simp] theorem State.latchedRegs_hdrName1 (s : State) : s.latchedRegs.hdrName1 = s.headerName 1 := rfl
@[simp] theorem State.latchedRegs_hdrName2 (s : State) : s.latchedRegs.hdrName2 = s.headerName 2 := rfl
@[simp] theorem State.latchedRegs_hdrName3 (s : State) : s.latchedRegs.hdrName3 = s.headerName 3 := rfl
@[simp] theorem State.latchedRegs_hdrName4 (s : State) : s.latchedRegs.hdrName4 = s.headerName 4 := rfl
@[simp] theorem State.latchedRegs_hdrName5 (s : State) : s.latchedRegs.hdrName5 = s.headerName 5 := rfl
@[simp] theorem State.latchedRegs_hdrName6 (s : State) : s.latchedRegs.hdrName6 = s.headerName 6 := rfl
@[simp] theorem State.latchedRegs_hdrName7 (s : State) : s.latchedRegs.hdrName7 = s.headerName 7 := rfl
@[simp] theorem State.latchedRegs_hdrDim (s : State) :
    s.latchedRegs.hdrDim = s.headerHalf 34 ++ s.headerHalf 32 := rfl
@[simp] theorem State.latchedRegs_hdrPad (s : State) :
    s.latchedRegs.hdrPad = s.headerHalf 38 ++ s.headerHalf 36 := rfl
@[simp] theorem State.latchedRegs_hdrFmt (s : State) :
    s.latchedRegs.hdrFmt = s.headerHalf 66 ++ s.headerHalf 64 := rfl
@[simp] theorem State.latchedRegs_hdrBayer (s : State) :
    s.latchedRegs.hdrBayer = 0#16 ++ s.headerByte 69 ++ s.headerByte 68 := rfl
@[simp] theorem State.latchedRegs_stride (s : State) :
    s.latchedRegs.stride = BitVec.ofNat 32 (strideOf (s.headerHalf 32).toNat (s.headerHalf 36).toNat) := rfl
@[simp] theorem State.latchedRegs_chDim (s : State) :
    s.latchedRegs.chDim = pairWord ((s.headerHalf 34).toNat / 2) ((s.headerHalf 32).toNat / 2) := rfl
@[simp] theorem State.latchedRegs_gridDim (s : State) :
    s.latchedRegs.gridDim = pairWord (gridOf ((s.headerHalf 34).toNat / 2)) (gridOf ((s.headerHalf 32).toNat / 2)) := rfl
@[simp] theorem State.latchedRegs_bayerOrder (s : State) :
    s.latchedRegs.bayerOrder = bayerOrderWord (orderLookup s.regs.orderCodes (s.headerByte 68)) := rfl
@[simp] theorem State.latchedRegs_middle0 (s : State) : s.latchedRegs.middle0 = s.regs.middle0 := rfl
@[simp] theorem State.latchedRegs_middle1 (s : State) : s.latchedRegs.middle1 = s.regs.middle1 := rfl
@[simp] theorem State.latchedRegs_middle2 (s : State) : s.latchedRegs.middle2 = s.regs.middle2 := rfl
@[simp] theorem State.latchedRegs_middle3 (s : State) : s.latchedRegs.middle3 = s.regs.middle3 := rfl

@[simp] theorem State.middleRegs_ctrl (s : State) : s.middleRegs.ctrl = s.regs.ctrl := rfl
@[simp] theorem State.middleRegs_status (s : State) : s.middleRegs.status = s.regs.status := rfl
@[simp] theorem State.middleRegs_errcode (s : State) : s.middleRegs.errcode = s.regs.errcode := rfl
@[simp] theorem State.middleRegs_blackLevel (s : State) : s.middleRegs.blackLevel = s.regs.blackLevel := rfl
@[simp] theorem State.middleRegs_srcBase (s : State) : s.middleRegs.srcBase = s.regs.srcBase := rfl
@[simp] theorem State.middleRegs_srcLen (s : State) : s.middleRegs.srcLen = s.regs.srcLen := rfl
@[simp] theorem State.middleRegs_hdrOff (s : State) : s.middleRegs.hdrOff = s.regs.hdrOff := rfl
@[simp] theorem State.middleRegs_pixOff (s : State) : s.middleRegs.pixOff = s.regs.pixOff := rfl
@[simp] theorem State.middleRegs_fmtCodes (s : State) : s.middleRegs.fmtCodes = s.regs.fmtCodes := rfl
@[simp] theorem State.middleRegs_orderCodes (s : State) : s.middleRegs.orderCodes = s.regs.orderCodes := rfl
@[simp] theorem State.middleRegs_planeBase0 (s : State) : s.middleRegs.planeBase0 = s.regs.planeBase0 := rfl
@[simp] theorem State.middleRegs_planeBase1 (s : State) : s.middleRegs.planeBase1 = s.regs.planeBase1 := rfl
@[simp] theorem State.middleRegs_planeBase2 (s : State) : s.middleRegs.planeBase2 = s.regs.planeBase2 := rfl
@[simp] theorem State.middleRegs_planeBase3 (s : State) : s.middleRegs.planeBase3 = s.regs.planeBase3 := rfl
@[simp] theorem State.middleRegs_gtBase (s : State) : s.middleRegs.gtBase = s.regs.gtBase := rfl
@[simp] theorem State.middleRegs_hdrName0 (s : State) : s.middleRegs.hdrName0 = s.regs.hdrName0 := rfl
@[simp] theorem State.middleRegs_hdrName1 (s : State) : s.middleRegs.hdrName1 = s.regs.hdrName1 := rfl
@[simp] theorem State.middleRegs_hdrName2 (s : State) : s.middleRegs.hdrName2 = s.regs.hdrName2 := rfl
@[simp] theorem State.middleRegs_hdrName3 (s : State) : s.middleRegs.hdrName3 = s.regs.hdrName3 := rfl
@[simp] theorem State.middleRegs_hdrName4 (s : State) : s.middleRegs.hdrName4 = s.regs.hdrName4 := rfl
@[simp] theorem State.middleRegs_hdrName5 (s : State) : s.middleRegs.hdrName5 = s.regs.hdrName5 := rfl
@[simp] theorem State.middleRegs_hdrName6 (s : State) : s.middleRegs.hdrName6 = s.regs.hdrName6 := rfl
@[simp] theorem State.middleRegs_hdrName7 (s : State) : s.middleRegs.hdrName7 = s.regs.hdrName7 := rfl
@[simp] theorem State.middleRegs_hdrDim (s : State) : s.middleRegs.hdrDim = s.regs.hdrDim := rfl
@[simp] theorem State.middleRegs_hdrPad (s : State) : s.middleRegs.hdrPad = s.regs.hdrPad := rfl
@[simp] theorem State.middleRegs_hdrFmt (s : State) : s.middleRegs.hdrFmt = s.regs.hdrFmt := rfl
@[simp] theorem State.middleRegs_hdrBayer (s : State) : s.middleRegs.hdrBayer = s.regs.hdrBayer := rfl
@[simp] theorem State.middleRegs_stride (s : State) : s.middleRegs.stride = s.regs.stride := rfl
@[simp] theorem State.middleRegs_chDim (s : State) : s.middleRegs.chDim = s.regs.chDim := rfl
@[simp] theorem State.middleRegs_gridDim (s : State) : s.middleRegs.gridDim = s.regs.gridDim := rfl
@[simp] theorem State.middleRegs_bayerOrder (s : State) : s.middleRegs.bayerOrder = s.regs.bayerOrder := rfl
@[simp] theorem State.middleRegs_middle0 (s : State) :
    s.middleRegs.middle0 = BitVec.ofNat 32 (s.middleOf 0) := rfl
@[simp] theorem State.middleRegs_middle1 (s : State) :
    s.middleRegs.middle1 = BitVec.ofNat 32 (s.middleOf 1) := rfl
@[simp] theorem State.middleRegs_middle2 (s : State) :
    s.middleRegs.middle2 = BitVec.ofNat 32 (s.middleOf 2) := rfl
@[simp] theorem State.middleRegs_middle3 (s : State) :
    s.middleRegs.middle3 = BitVec.ofNat 32 (s.middleOf 3) := rfl

/-! ## State -/

@[simp] theorem State.setRegs_regs (s : State) (v : Regs) : (s.setRegs v).regs = v := rfl
@[simp] theorem State.setRegs_pending (s : State) (v : Regs) : (s.setRegs v).pending = s.pending := rfl
@[simp] theorem State.setRegs_mem (s : State) (v : Regs) : (s.setRegs v).mem = s.mem := rfl
@[simp] theorem State.setRegs_script (s : State) (v : Regs) : (s.setRegs v).script = s.script := rfl
@[simp] theorem State.setRegs_line (s : State) (v : Regs) : (s.setRegs v).line = s.line := rfl
@[simp] theorem State.setRegs_schedule (s : State) (v : Regs) : (s.setRegs v).schedule = s.schedule := rfl
@[simp] theorem State.setRegs_readData (s : State) (v : Regs) : (s.setRegs v).readData = s.readData := rfl
@[simp] theorem State.setRegs_loadData (s : State) (v : Regs) : (s.setRegs v).loadData = s.loadData := rfl
@[simp] theorem State.setRegs_draws (s : State) (v : Regs) : (s.setRegs v).draws = s.draws := rfl

@[simp] theorem State.setPending_regs (s : State) (v : Option Word) : (s.setPending v).regs = s.regs := rfl
@[simp] theorem State.setPending_pending (s : State) (v : Option Word) : (s.setPending v).pending = v := rfl
@[simp] theorem State.setPending_mem (s : State) (v : Option Word) : (s.setPending v).mem = s.mem := rfl
@[simp] theorem State.setPending_script (s : State) (v : Option Word) :
    (s.setPending v).script = s.script := rfl
@[simp] theorem State.setPending_line (s : State) (v : Option Word) : (s.setPending v).line = s.line := rfl
@[simp] theorem State.setPending_schedule (s : State) (v : Option Word) :
    (s.setPending v).schedule = s.schedule := rfl
@[simp] theorem State.setPending_readData (s : State) (v : Option Word) :
    (s.setPending v).readData = s.readData := rfl
@[simp] theorem State.setPending_loadData (s : State) (v : Option Word) :
    (s.setPending v).loadData = s.loadData := rfl
@[simp] theorem State.setPending_draws (s : State) (v : Option Word) : (s.setPending v).draws = s.draws := rfl

@[simp] theorem State.setMem_regs (s : State) (v : Memory) : (s.setMem v).regs = s.regs := rfl
@[simp] theorem State.setMem_pending (s : State) (v : Memory) : (s.setMem v).pending = s.pending := rfl
@[simp] theorem State.setMem_mem (s : State) (v : Memory) : (s.setMem v).mem = v := rfl
@[simp] theorem State.setMem_script (s : State) (v : Memory) : (s.setMem v).script = s.script := rfl
@[simp] theorem State.setMem_line (s : State) (v : Memory) : (s.setMem v).line = s.line := rfl
@[simp] theorem State.setMem_schedule (s : State) (v : Memory) : (s.setMem v).schedule = s.schedule := rfl
@[simp] theorem State.setMem_readData (s : State) (v : Memory) : (s.setMem v).readData = s.readData := rfl
@[simp] theorem State.setMem_loadData (s : State) (v : Memory) : (s.setMem v).loadData = s.loadData := rfl
@[simp] theorem State.setMem_draws (s : State) (v : Memory) : (s.setMem v).draws = s.draws := rfl

@[simp] theorem State.setLine_regs (s : State) (v : Nat) : (s.setLine v).regs = s.regs := rfl
@[simp] theorem State.setLine_pending (s : State) (v : Nat) : (s.setLine v).pending = s.pending := rfl
@[simp] theorem State.setLine_mem (s : State) (v : Nat) : (s.setLine v).mem = s.mem := rfl
@[simp] theorem State.setLine_script (s : State) (v : Nat) : (s.setLine v).script = s.script := rfl
@[simp] theorem State.setLine_line (s : State) (v : Nat) : (s.setLine v).line = v := rfl
@[simp] theorem State.setLine_schedule (s : State) (v : Nat) : (s.setLine v).schedule = s.schedule := rfl
@[simp] theorem State.setLine_readData (s : State) (v : Nat) : (s.setLine v).readData = s.readData := rfl
@[simp] theorem State.setLine_loadData (s : State) (v : Nat) : (s.setLine v).loadData = s.loadData := rfl
@[simp] theorem State.setLine_draws (s : State) (v : Nat) : (s.setLine v).draws = s.draws := rfl

@[simp] theorem State.setSchedule_regs (s : State) (v : List Turn) : (s.setSchedule v).regs = s.regs := rfl
@[simp] theorem State.setSchedule_pending (s : State) (v : List Turn) :
    (s.setSchedule v).pending = s.pending := rfl
@[simp] theorem State.setSchedule_mem (s : State) (v : List Turn) : (s.setSchedule v).mem = s.mem := rfl
@[simp] theorem State.setSchedule_script (s : State) (v : List Turn) :
    (s.setSchedule v).script = s.script := rfl
@[simp] theorem State.setSchedule_line (s : State) (v : List Turn) : (s.setSchedule v).line = s.line := rfl
@[simp] theorem State.setSchedule_schedule (s : State) (v : List Turn) : (s.setSchedule v).schedule = v := rfl
@[simp] theorem State.setSchedule_readData (s : State) (v : List Turn) :
    (s.setSchedule v).readData = s.readData := rfl
@[simp] theorem State.setSchedule_loadData (s : State) (v : List Turn) :
    (s.setSchedule v).loadData = s.loadData := rfl
@[simp] theorem State.setSchedule_draws (s : State) (v : List Turn) : (s.setSchedule v).draws = s.draws := rfl

@[simp] theorem State.setReadData_regs (s : State) (v : Word) : (s.setReadData v).regs = s.regs := rfl
@[simp] theorem State.setReadData_pending (s : State) (v : Word) :
    (s.setReadData v).pending = s.pending := rfl
@[simp] theorem State.setReadData_mem (s : State) (v : Word) : (s.setReadData v).mem = s.mem := rfl
@[simp] theorem State.setReadData_script (s : State) (v : Word) : (s.setReadData v).script = s.script := rfl
@[simp] theorem State.setReadData_line (s : State) (v : Word) : (s.setReadData v).line = s.line := rfl
@[simp] theorem State.setReadData_schedule (s : State) (v : Word) :
    (s.setReadData v).schedule = s.schedule := rfl
@[simp] theorem State.setReadData_readData (s : State) (v : Word) : (s.setReadData v).readData = v := rfl
@[simp] theorem State.setReadData_loadData (s : State) (v : Word) :
    (s.setReadData v).loadData = s.loadData := rfl
@[simp] theorem State.setReadData_draws (s : State) (v : Word) : (s.setReadData v).draws = s.draws := rfl

@[simp] theorem State.setLoadData_regs (s : State) (v : Byte) : (s.setLoadData v).regs = s.regs := rfl
@[simp] theorem State.setLoadData_pending (s : State) (v : Byte) :
    (s.setLoadData v).pending = s.pending := rfl
@[simp] theorem State.setLoadData_mem (s : State) (v : Byte) : (s.setLoadData v).mem = s.mem := rfl
@[simp] theorem State.setLoadData_script (s : State) (v : Byte) : (s.setLoadData v).script = s.script := rfl
@[simp] theorem State.setLoadData_line (s : State) (v : Byte) : (s.setLoadData v).line = s.line := rfl
@[simp] theorem State.setLoadData_schedule (s : State) (v : Byte) :
    (s.setLoadData v).schedule = s.schedule := rfl
@[simp] theorem State.setLoadData_readData (s : State) (v : Byte) :
    (s.setLoadData v).readData = s.readData := rfl
@[simp] theorem State.setLoadData_loadData (s : State) (v : Byte) : (s.setLoadData v).loadData = v := rfl
@[simp] theorem State.setLoadData_draws (s : State) (v : Byte) : (s.setLoadData v).draws = s.draws := rfl

@[simp] theorem State.setDraws_regs (s : State) (v : Nat) : (s.setDraws v).regs = s.regs := rfl
@[simp] theorem State.setDraws_pending (s : State) (v : Nat) : (s.setDraws v).pending = s.pending := rfl
@[simp] theorem State.setDraws_mem (s : State) (v : Nat) : (s.setDraws v).mem = s.mem := rfl
@[simp] theorem State.setDraws_script (s : State) (v : Nat) : (s.setDraws v).script = s.script := rfl
@[simp] theorem State.setDraws_line (s : State) (v : Nat) : (s.setDraws v).line = s.line := rfl
@[simp] theorem State.setDraws_schedule (s : State) (v : Nat) : (s.setDraws v).schedule = s.schedule := rfl
@[simp] theorem State.setDraws_readData (s : State) (v : Nat) : (s.setDraws v).readData = s.readData := rfl
@[simp] theorem State.setDraws_loadData (s : State) (v : Nat) : (s.setDraws v).loadData = s.loadData := rfl
@[simp] theorem State.setDraws_draws (s : State) (v : Nat) : (s.setDraws v).draws = v := rfl

@[simp] theorem State.setFlag_regs (s : State) (f : Flag) (b : Bool) :
    (s.setFlag f b).regs = s.regs.setStatus (setBit s.regs.status (flagBit f) b) := rfl
@[simp] theorem State.setFlag_pending (s : State) (f : Flag) (b : Bool) :
    (s.setFlag f b).pending = s.pending := rfl
@[simp] theorem State.setFlag_mem (s : State) (f : Flag) (b : Bool) : (s.setFlag f b).mem = s.mem := rfl
@[simp] theorem State.setFlag_script (s : State) (f : Flag) (b : Bool) :
    (s.setFlag f b).script = s.script := rfl
@[simp] theorem State.setFlag_line (s : State) (f : Flag) (b : Bool) : (s.setFlag f b).line = s.line := rfl
@[simp] theorem State.setFlag_schedule (s : State) (f : Flag) (b : Bool) :
    (s.setFlag f b).schedule = s.schedule := rfl
@[simp] theorem State.setFlag_readData (s : State) (f : Flag) (b : Bool) :
    (s.setFlag f b).readData = s.readData := rfl
@[simp] theorem State.setFlag_loadData (s : State) (f : Flag) (b : Bool) :
    (s.setFlag f b).loadData = s.loadData := rfl
@[simp] theorem State.setFlag_draws (s : State) (f : Flag) (b : Bool) : (s.setFlag f b).draws = s.draws := rfl

@[simp] theorem State.setCurOp_regs (s : State) (op : BitVec 4) :
    (s.setCurOp op).regs = s.regs.setStatus (statusWithCurOp s.regs.status op) := rfl
@[simp] theorem State.setCurOp_pending (s : State) (op : BitVec 4) :
    (s.setCurOp op).pending = s.pending := rfl
@[simp] theorem State.setCurOp_mem (s : State) (op : BitVec 4) : (s.setCurOp op).mem = s.mem := rfl
@[simp] theorem State.setCurOp_script (s : State) (op : BitVec 4) : (s.setCurOp op).script = s.script := rfl
@[simp] theorem State.setCurOp_line (s : State) (op : BitVec 4) : (s.setCurOp op).line = s.line := rfl
@[simp] theorem State.setCurOp_schedule (s : State) (op : BitVec 4) :
    (s.setCurOp op).schedule = s.schedule := rfl
@[simp] theorem State.setCurOp_readData (s : State) (op : BitVec 4) :
    (s.setCurOp op).readData = s.readData := rfl
@[simp] theorem State.setCurOp_loadData (s : State) (op : BitVec 4) :
    (s.setCurOp op).loadData = s.loadData := rfl
@[simp] theorem State.setCurOp_draws (s : State) (op : BitVec 4) : (s.setCurOp op).draws = s.draws := rfl

@[simp] theorem State.setErrcode_regs (s : State) (v : Word) :
    (s.setErrcode v).regs = s.regs.setErrcode v := rfl
@[simp] theorem State.setErrcode_pending (s : State) (v : Word) : (s.setErrcode v).pending = s.pending := rfl
@[simp] theorem State.setErrcode_mem (s : State) (v : Word) : (s.setErrcode v).mem = s.mem := rfl
@[simp] theorem State.setErrcode_script (s : State) (v : Word) : (s.setErrcode v).script = s.script := rfl
@[simp] theorem State.setErrcode_line (s : State) (v : Word) : (s.setErrcode v).line = s.line := rfl
@[simp] theorem State.setErrcode_schedule (s : State) (v : Word) :
    (s.setErrcode v).schedule = s.schedule := rfl
@[simp] theorem State.setErrcode_readData (s : State) (v : Word) :
    (s.setErrcode v).readData = s.readData := rfl
@[simp] theorem State.setErrcode_loadData (s : State) (v : Word) :
    (s.setErrcode v).loadData = s.loadData := rfl
@[simp] theorem State.setErrcode_draws (s : State) (v : Word) : (s.setErrcode v).draws = s.draws := rfl

@[simp] theorem State.latchHeader_regs (s : State) : s.latchHeader.regs = s.latchedRegs := rfl
@[simp] theorem State.latchHeader_pending (s : State) : s.latchHeader.pending = s.pending := rfl
@[simp] theorem State.latchHeader_mem (s : State) : s.latchHeader.mem = s.mem := rfl
@[simp] theorem State.latchHeader_script (s : State) : s.latchHeader.script = s.script := rfl
@[simp] theorem State.latchHeader_line (s : State) : s.latchHeader.line = s.line := rfl
@[simp] theorem State.latchHeader_schedule (s : State) : s.latchHeader.schedule = s.schedule := rfl
@[simp] theorem State.latchHeader_readData (s : State) : s.latchHeader.readData = s.readData := rfl
@[simp] theorem State.latchHeader_loadData (s : State) : s.latchHeader.loadData = s.loadData := rfl
@[simp] theorem State.latchHeader_draws (s : State) : s.latchHeader.draws = s.draws := rfl

/-! ## What the updates of other fields leave of the flags -/

@[simp] theorem State.setPending_flag (s : State) (v : Option Word) (f : Flag) :
    (s.setPending v).flag f = s.flag f := rfl
@[simp] theorem State.setPending_curOp (s : State) (v : Option Word) : (s.setPending v).curOp = s.curOp := rfl
@[simp] theorem State.setMem_flag (s : State) (v : Memory) (f : Flag) : (s.setMem v).flag f = s.flag f := rfl
@[simp] theorem State.setMem_curOp (s : State) (v : Memory) : (s.setMem v).curOp = s.curOp := rfl
@[simp] theorem State.setLine_flag (s : State) (v : Nat) (f : Flag) : (s.setLine v).flag f = s.flag f := rfl
@[simp] theorem State.setLine_curOp (s : State) (v : Nat) : (s.setLine v).curOp = s.curOp := rfl
@[simp] theorem State.setSchedule_flag (s : State) (v : List Turn) (f : Flag) :
    (s.setSchedule v).flag f = s.flag f := rfl
@[simp] theorem State.setSchedule_curOp (s : State) (v : List Turn) : (s.setSchedule v).curOp = s.curOp := rfl
@[simp] theorem State.setReadData_flag (s : State) (v : Word) (f : Flag) :
    (s.setReadData v).flag f = s.flag f := rfl
@[simp] theorem State.setReadData_curOp (s : State) (v : Word) : (s.setReadData v).curOp = s.curOp := rfl
@[simp] theorem State.setLoadData_flag (s : State) (v : Byte) (f : Flag) :
    (s.setLoadData v).flag f = s.flag f := rfl
@[simp] theorem State.setLoadData_curOp (s : State) (v : Byte) : (s.setLoadData v).curOp = s.curOp := rfl
@[simp] theorem State.setDraws_flag (s : State) (v : Nat) (f : Flag) : (s.setDraws v).flag f = s.flag f := rfl
@[simp] theorem State.setDraws_curOp (s : State) (v : Nat) : (s.setDraws v).curOp = s.curOp := rfl
@[simp] theorem State.setErrcode_flag (s : State) (v : Word) (f : Flag) :
    (s.setErrcode v).flag f = s.flag f := rfl
@[simp] theorem State.setErrcode_curOp (s : State) (v : Word) : (s.setErrcode v).curOp = s.curOp := rfl
@[simp] theorem State.latchHeader_flag (s : State) (f : Flag) : s.latchHeader.flag f = s.flag f := rfl
@[simp] theorem State.latchHeader_curOp (s : State) : s.latchHeader.curOp = s.curOp := rfl

end Sys2Proof.Machine
end

