-- ==== Sys2Proof/Laws/Flags.lean ====
section
/-! SUPPORT. What writing one bit or field of STATUS does to its other bits. -/

namespace Sys2Proof.Machine

/-- Every bit of a word after one bit is written. -/
theorem getLsbD_setBit (w : Word) (i j : Nat) (b : Bool) :
    (setBit w i b).getLsbD j = if j = i ∧ j < 32 then b else w.getLsbD j := by
  unfold setBit
  by_cases hj : j < 32
  · by_cases hij : j = i
    · subst hij; cases b <;> simp [hj]
    · cases b
      · simp [hj, hij]
      · simp [hj, hij]
  · simp [BitVec.getLsbD_of_ge, Nat.not_lt.mp hj, hj]

theorem flagBit_lt (f : Flag) : flagBit f < 9 := by cases f <;> decide

theorem flagBit_injective : ∀ f g : Flag, flagBit f = flagBit g → f = g := by
  intro f g h; cases f <;> cases g <;> first | rfl | (simp [flagBit] at h)

/-- A flag of a STATUS word after a flag is written. -/
@[simp] theorem statusFlag_setBit (w : Word) (f g : Flag) (b : Bool) :
    statusFlag (setBit w (flagBit f) b) g = if g = f then b else statusFlag w g := by
  unfold statusFlag
  rw [getLsbD_setBit]
  have hg := flagBit_lt g
  by_cases h : g = f
  · subst h; simp; omega
  · have : flagBit g ≠ flagBit f := fun e => h (flagBit_injective _ _ e)
    simp [h, this]

/-- A flag of the machine after a flag is written. -/
@[simp] theorem State.flag_setFlag (s : State) (f g : Flag) (b : Bool) :
    (s.setFlag f b).flag g = if g = f then b else s.flag g := by
  simp [State.flag]

/-- Every bit of STATUS after a flag is written. -/
theorem State.bit_setFlag (s : State) (f : Flag) (b : Bool) (i : Nat) :
    (s.setFlag f b).regs.status.getLsbD i = if i = flagBit f then b else s.regs.status.getLsbD i := by
  have := flagBit_lt f
  rw [State.setFlag_regs, Regs.setStatus_status, getLsbD_setBit]
  by_cases h : i = flagBit f
  · simp [h]; omega
  · simp [h]

/-- CUR_OP is no flag. -/
@[simp] theorem statusFlag_withCurOp (w : Word) (op : BitVec 4) (g : Flag) :
    statusFlag (statusWithCurOp w op) g = statusFlag w g := by
  unfold statusFlag statusWithCurOp
  have hg := flagBit_lt g
  rw [BitVec.getLsbD_append, if_pos (by omega), BitVec.getLsbD_extractLsb']
  simp; omega

@[simp] theorem State.flag_setCurOp (s : State) (op : BitVec 4) (g : Flag) :
    (s.setCurOp op).flag g = s.flag g := by
  simp [State.flag]

/-- A field of a word outside the written bit is left alone. -/
theorem extract_setBit (w : Word) (i lo n : Nat) (b : Bool) (h : i < lo ∨ lo + n ≤ i) :
    (setBit w i b).extractLsb' lo n = w.extractLsb' lo n := by
  ext j hj
  simp only [BitVec.getElem_extractLsb', getLsbD_setBit]
  rw [if_neg (by omega)]

@[simp] theorem State.curOp_setFlag (s : State) (f : Flag) (b : Bool) :
    (s.setFlag f b).curOp = s.curOp := by
  have := flagBit_lt f
  simp only [State.curOp, State.setFlag_regs, Regs.setStatus_status]
  exact extract_setBit _ _ _ _ _ (by omega)

@[simp] theorem State.curOp_setCurOp (s : State) (op : BitVec 4) : (s.setCurOp op).curOp = op := by
  simp only [State.curOp, State.setCurOp_regs, Regs.setStatus_status, statusWithCurOp]
  ext j hj
  simp only [BitVec.getElem_extractLsb', BitVec.getLsbD_append]
  rw [if_neg (by omega), if_pos (by omega), show 12 + j - 12 = j by omega]
  simp [BitVec.getLsbD_eq_getElem hj]

/-- Every bit of STATUS after a host write: a bit of the W1C mask that the host writes 1 is cleared. -/
theorem getLsbD_statusAfterWrite (status data : Word) (i : Nat) :
    (statusAfterWrite status data).getLsbD i =
      (status.getLsbD i && !(data.getLsbD i && w1cMask.getLsbD i)) := by
  unfold statusAfterWrite
  by_cases hi : i < 32
  · simp [hi]
  · simp [BitVec.getLsbD_of_ge, Nat.not_lt.mp hi]

end Sys2Proof.Machine
end

