-- ==== Sys2Proof/Laws/Memory.lean ====
section
/-! SUPPORT. What a write does to memory: the written bytes read back, every other byte is left alone, and the
canonical form stays. The read law asks nothing of the memory it writes to. -/

namespace Sys2Proof.Machine

@[simp] theorem Memory.read_nil (a : Nat) : Memory.read [] a = unlistedByte := rfl

theorem Memory.read_cons (b : Nat) (v : Byte) (m : Memory) (a : Nat) :
    Memory.read ((b, v) :: m) a = if a = b then v else Memory.read m a := rfl

/-- A memory none of whose cells is at the address reads there as an unlisted address does. -/
theorem Memory.read_of_absent (m : Memory) (a : Nat) (h : ∀ c ∈ m, c.1 ≠ a) :
    Memory.read m a = unlistedByte := by
  induction m with
  | nil => rfl
  | cons c m ih =>
    obtain ⟨b, v⟩ := c
    have hb : a ≠ b := fun e => h (b, v) (by simp) e.symm
    rw [Memory.read_cons, if_neg hb]
    exact ih fun c hc => h c (by simp [hc])

/-- Reading past a front part that has no cell at the address. -/
theorem Memory.read_append_absent (m m' : Memory) (a : Nat) (h : ∀ c ∈ m, c.1 ≠ a) :
    Memory.read (m ++ m') a = Memory.read m' a := by
  induction m with
  | nil => rfl
  | cons c m ih =>
    obtain ⟨b, v⟩ := c
    have hb : a ≠ b := fun e => h (b, v) (by simp) e.symm
    rw [List.cons_append, Memory.read_cons, if_neg hb]
    exact ih fun c hc => h c (by simp [hc])

/-- Reading before a back part that has no cell at the address. -/
theorem Memory.read_append_left (m m' : Memory) (a : Nat) (h : ∀ c ∈ m', c.1 ≠ a) :
    Memory.read (m ++ m') a = Memory.read m a := by
  induction m with
  | nil => simpa using Memory.read_of_absent m' a h
  | cons c m ih =>
    obtain ⟨b, v⟩ := c
    rw [List.cons_append, Memory.read_cons, Memory.read_cons, ih]

/-- Keeping only addresses of a kind does not change what such an address reads. -/
theorem Memory.read_filter (m : Memory) (p : Nat → Bool) (a : Nat) (hp : p a = true) :
    Memory.read (m.filter fun c => p c.1) a = Memory.read m a := by
  induction m with
  | nil => rfl
  | cons c m ih =>
    obtain ⟨b, v⟩ := c
    by_cases hb : p b = true
    · rw [List.filter_cons_of_pos (by simpa using hb), Memory.read_cons, Memory.read_cons, ih]
    · rw [List.filter_cons_of_neg (by simpa using hb), Memory.read_cons, ih, if_neg]
      rintro rfl
      exact hb hp

/-- The cells of a written range lie in it and hold what the writer gave. -/
theorem memCells_mem (base : Nat) (f : Nat → Byte) (off n : Nat) (c : Host.Cell)
    (h : c ∈ memCells base f off n) :
    base + off ≤ c.1 ∧ c.1 < base + off + n ∧ c.2 ≠ unlistedByte := by
  induction n generalizing off with
  | zero => simp [memCells] at h
  | succ n ih =>
    rw [memCells] at h
    split at h
    · obtain ⟨h1, h2, h3⟩ := ih _ h
      exact ⟨by omega, by omega, h3⟩
    · rcases List.mem_cons.mp h with rfl | h
      · exact ⟨le_rfl, by simp, by assumption⟩
      · obtain ⟨h1, h2, h3⟩ := ih _ h
        exact ⟨by omega, by omega, h3⟩

theorem Memory.read_memCells (base : Nat) (f : Nat → Byte) (off n i : Nat) (hi : i < n) :
    Memory.read (memCells base f off n) (base + (off + i)) = f (off + i) := by
  induction n generalizing off i with
  | zero => omega
  | succ n ih =>
    rw [memCells]
    cases i with
    | zero =>
      split
      · rename_i hz
        rw [Memory.read_of_absent _ _ (fun c hc => by have := (memCells_mem _ _ _ _ c hc).1; omega)]
        simpa using hz.symm
      · simp [Memory.read_cons]
    | succ i =>
      have e : off + (i + 1) = off + 1 + i := by omega
      split
      · rw [e]; exact ih (off + 1) i (by omega)
      · rw [Memory.read_cons, if_neg (by omega), e]
        exact ih (off + 1) i (by omega)

/-- What a range write leaves at every address. -/
theorem Memory.read_writeRange (m : Memory) (base n : Nat) (f : Nat → Byte) (a : Nat) :
    (m.writeRange base n f).read a = if base ≤ a ∧ a < base + n then f (a - base) else m.read a := by
  unfold Memory.writeRange
  have hlow : ∀ c ∈ m.filter (fun c => decide (c.1 < base)), c.1 < base := by
    intro c hc; simpa using (List.mem_filter.mp hc).2
  have hhigh : ∀ c ∈ m.filter (fun c => decide (base + n ≤ c.1)), base + n ≤ c.1 := by
    intro c hc; simpa using (List.mem_filter.mp hc).2
  have hmid : ∀ c ∈ memCells base f 0 n, base ≤ c.1 ∧ c.1 < base + n := by
    intro c hc; have := memCells_mem _ _ _ _ c hc; omega
  split
  · rename_i h
    rw [Memory.read_append_left _ _ _ (fun c hc => by have := hhigh c hc; omega),
      Memory.read_append_absent _ _ _ (fun c hc => by have := hlow c hc; omega)]
    have := Memory.read_memCells base f 0 n (a - base) (by omega)
    simp only [Nat.zero_add] at this
    rwa [show base + (a - base) = a by omega] at this
  · rename_i h
    by_cases ha : a < base
    · rw [List.append_assoc, Memory.read_append_left _ _ _ (fun c hc => by
        rcases List.mem_append.mp hc with hc | hc
        · have := hmid c hc; omega
        · have := hhigh c hc; omega)]
      exact Memory.read_filter m (fun x => decide (x < base)) a (by simpa using ha)
    · rw [Memory.read_append_absent _ _ _ (fun c hc => by
        rcases List.mem_append.mp hc with hc | hc
        · have := hlow c hc; omega
        · have := hmid c hc; omega)]
      exact Memory.read_filter m (fun x => decide (base + n ≤ x)) a (by simp; omega)

/-- A written byte reads back. -/
@[simp] theorem Memory.read_write_same (m : Memory) (a : Nat) (v : Byte) : (m.write a v).read a = v := by
  simp [Memory.write, Memory.read_writeRange]

/-- A write leaves every other byte alone. -/
theorem Memory.read_write_other (m : Memory) (a b : Nat) (v : Byte) (h : b ≠ a) :
    (m.write a v).read b = m.read b := by
  rw [Memory.write, Memory.read_writeRange, if_neg (by omega)]

/-! ## The canonical form -/

theorem Memory.wfFrom_mono (m : Memory) (lo hi : Nat) (h : hi ≤ lo) (hm : Memory.wfFrom lo m = true) :
    Memory.wfFrom hi m = true := by
  cases m with
  | nil => rfl
  | cons c m =>
    obtain ⟨a, v⟩ := c
    simp only [Memory.wfFrom, Bool.and_eq_true, decide_eq_true_eq] at hm ⊢
    exact ⟨⟨⟨by omega, hm.1.1.2⟩, hm.1.2⟩, hm.2⟩

theorem Memory.wfFrom_filter (m : Memory) (lo : Nat) (p : Host.Cell → Bool)
    (hm : Memory.wfFrom lo m = true) : Memory.wfFrom lo (m.filter p) = true := by
  induction m generalizing lo with
  | nil => rfl
  | cons c m ih =>
    obtain ⟨a, v⟩ := c
    simp only [Memory.wfFrom, Bool.and_eq_true, decide_eq_true_eq] at hm
    by_cases hp : p (a, v) = true
    · rw [List.filter_cons_of_pos hp]
      simp only [Memory.wfFrom, Bool.and_eq_true, decide_eq_true_eq]
      exact ⟨hm.1, ih _ hm.2⟩
    · rw [List.filter_cons_of_neg hp]
      exact ih lo (Memory.wfFrom_mono m (a + 1) lo (by omega) hm.2)

/-- The part from an address upwards is canonical from that address. -/
theorem Memory.wfFrom_filter_ge (m : Memory) (lo b : Nat) (hm : Memory.wfFrom lo m = true) :
    Memory.wfFrom b (m.filter fun c => decide (b ≤ c.1)) = true := by
  induction m generalizing lo with
  | nil => rfl
  | cons c m ih =>
    obtain ⟨a, v⟩ := c
    simp only [Memory.wfFrom, Bool.and_eq_true, decide_eq_true_eq] at hm
    by_cases hb : b ≤ a
    · rw [List.filter_cons_of_pos (by simpa using hb)]
      simp only [Memory.wfFrom, Bool.and_eq_true, decide_eq_true_eq]
      exact ⟨⟨⟨hb, hm.1.1.2⟩, hm.1.2⟩, Memory.wfFrom_filter m (a + 1) _ hm.2⟩
    · rw [List.filter_cons_of_neg (by simpa using hb)]
      exact ih _ hm.2

/-- Two canonical parts, the first all below the second, join. -/
theorem Memory.wfFrom_append (m m' : Memory) (lo mid : Nat) (hm : Memory.wfFrom lo m = true)
    (hm' : Memory.wfFrom mid m' = true) (hlo : lo ≤ mid) (hlt : ∀ c ∈ m, c.1 < mid) :
    Memory.wfFrom lo (m ++ m') = true := by
  induction m generalizing lo with
  | nil => exact Memory.wfFrom_mono m' mid lo hlo hm'
  | cons c m ih =>
    obtain ⟨a, v⟩ := c
    simp only [Memory.wfFrom, Bool.and_eq_true, decide_eq_true_eq, List.cons_append] at hm ⊢
    have ha := hlt (a, v) (by simp)
    exact ⟨hm.1, ih (a + 1) hm.2 ha fun c hc => hlt c (by simp [hc])⟩

theorem Memory.wfFrom_memCells (base : Nat) (f : Nat → Byte) (off n : Nat)
    (h : base + off + n ≤ Config.addressLimit) : Memory.wfFrom (base + off) (memCells base f off n) = true := by
  induction n generalizing off with
  | zero => rfl
  | succ n ih =>
    rw [memCells]
    have ih' := ih (off + 1) (by omega)
    split
    · exact Memory.wfFrom_mono _ _ _ (by omega) ih'
    · rename_i hv
      simp only [Memory.wfFrom, Bool.and_eq_true, decide_eq_true_eq, bne_iff_ne]
      exact ⟨⟨⟨le_rfl, by omega⟩, hv⟩, ih'⟩

/-- A write of a range of the address space keeps the canonical form. -/
theorem Memory.wf_writeRange (m : Memory) (base n : Nat) (f : Nat → Byte) (hm : m.wf = true)
    (h : base + n ≤ Config.addressLimit) : (m.writeRange base n f).wf = true := by
  unfold Memory.writeRange Memory.wf
  have h1 := Memory.wfFrom_filter m 0 (fun c => decide (c.1 < base)) hm
  have h2 := Memory.wfFrom_memCells base f 0 n (by omega)
  have h3 := Memory.wfFrom_filter_ge m 0 (base + n) hm
  have h12 := Memory.wfFrom_append _ _ 0 base h1 h2 (by omega) fun c hc => by
    simpa using (List.mem_filter.mp hc).2
  refine Memory.wfFrom_append _ _ 0 (base + n) h12 h3 (by omega) fun c hc => ?_
  rcases List.mem_append.mp hc with hc | hc
  · have : c.1 < base := by simpa using (List.mem_filter.mp hc).2
    omega
  · have := memCells_mem _ _ _ _ c hc
    omega

/-- A write of one byte of the address space keeps the canonical form. -/
theorem Memory.wf_write (m : Memory) (a : Nat) (v : Byte) (hm : m.wf = true)
    (h : a < Config.addressLimit) : (m.write a v).wf = true :=
  Memory.wf_writeRange m a 1 _ hm (by omega)

/-- Memory at reset is canonical. -/
theorem reset_mem_wf : State.reset.mem.wf = true := rfl

end Sys2Proof.Machine
end

