-- ==== Sys2Proof/Laws/Operands.lean ====
section
/-! SUPPORT. The operands as numbers: halves of a register, header fields, the group's pixels, the stride and
grid laws, the corrected sample, plane samples and regions. -/

namespace Sys2Proof.Machine

/-! ## Words -/

/-- Two bit strings joined, as a number. -/
theorem append_toNat {m n : Nat} (x : BitVec m) (y : BitVec n) :
    (x ++ y).toNat = x.toNat * 2 ^ n + y.toNat := by
  rw [BitVec.toNat_append, ← Nat.shiftLeft_add_eq_or_of_lt y.isLt, Nat.shiftLeft_eq]

theorem lowHalf_eq (w : Word) : lowHalf w = w.toNat % 65536 := by
  simp [lowHalf, BitVec.extractLsb'_toNat]

theorem highHalf_eq (w : Word) : highHalf w = w.toNat / 65536 := by
  have := w.isLt
  simp [highHalf, BitVec.extractLsb'_toNat, Nat.shiftRight_eq_div_pow]; omega

@[simp] theorem lowHalf_append (a b : Half) : lowHalf (a ++ b) = b.toNat :=
  congrArg BitVec.toNat (BitVec.extractLsb'_append_eq_right (a := a) (b := b))

@[simp] theorem highHalf_append (a b : Half) : highHalf (a ++ b) = a.toNat :=
  congrArg BitVec.toNat (BitVec.extractLsb'_append_eq_left (a := a) (b := b))

/-- The value of a register of two 16-bit numbers. -/
theorem pairWord_toNat (high low : Nat) (hh : high < 65536) (hl : low < 65536) :
    (pairWord high low).toNat = low + 65536 * high := by
  refine (append_toNat (BitVec.ofNat 16 high) (BitVec.ofNat 16 low)).trans ?_
  simp; omega

/-- The low and the high byte of a sample, weighted, are the sample. -/
theorem half_bytes (w : Half) :
    (w.extractLsb' 0 8).toNat + 256 * (w.extractLsb' 8 8).toNat = w.toNat := by
  have := w.isLt
  simp [BitVec.extractLsb'_toNat, Nat.shiftRight_eq_div_pow]; omega

/-- ERRCODE.CODE of an error word. -/
theorem errWord_code (issued phase : BitVec 4) (code : ErrCode) :
    (errWord issued phase code).extractLsb' 0 8 = errNumber code := by
  unfold errWord; exact BitVec.extractLsb'_append_eq_right

/-- No error has the code 0 (R27, R261). -/
theorem errNumber_ne_zero (code : ErrCode) : errNumber code ≠ 0#8 := by cases code <;> decide

/-! ## The header record -/

/-- A 16-bit header field is its low byte and 256 times its high byte (R120). -/
theorem headerHalf_toNat (s : State) (n : Nat) :
    (s.headerHalf n).toNat = (s.headerByte n).toNat + 256 * (s.headerByte (n + 1)).toNat := by
  unfold State.headerHalf le16
  rw [append_toNat]; omega

/-- The stride law without the rounding-up division (R147). -/
theorem strideOf_eq (w pr : Nat) : strideOf w pr = (((w + pr) * 5 + 3) / 4 + 31) / 32 * 32 := by
  unfold strideOf ceilDiv Config.strideAlign
  split <;> omega

/-- The grid law without the rounding-up division (R148). -/
theorem gridOf_eq (n : Nat) : gridOf n = (n + 31) / 32 := by
  unfold gridOf ceilDiv Config.pitch
  split <;> omega

/-- What the order lookup answers: the least matching index (R150). -/
theorem orderLookup_some (codes : Word) (ord : Byte) (k : Fin 4)
    (hk : codes.extractLsb' (8 * k.val) 8 = ord)
    (hlt : ∀ j : Fin 4, j < k → codes.extractLsb' (8 * j.val) 8 ≠ ord) :
    orderLookup codes ord = some (BitVec.ofFin k) := by
  unfold orderLookup
  have a0 := hlt 0; have a1 := hlt 1; have a2 := hlt 2
  fin_cases k <;> simp_all

/-- The order lookup finds nothing where no code is the one sought (R150). -/
theorem orderLookup_none (codes : Word) (ord : Byte)
    (h : ∀ j : Fin 4, codes.extractLsb' (8 * j.val) 8 ≠ ord) : orderLookup codes ord = none := by
  unfold orderLookup
  have a0 := h 0; have a1 := h 1; have a2 := h 2; have a3 := h 3
  simp_all

/-! ## Pixels and samples -/

/-- One pixel of a group: its MSB byte, and its bit pair of the fifth byte (R122). -/
theorem rawSample_toNat (msb lsbs : Byte) (j : Nat) :
    (rawSample msb lsbs j).toNat = 4 * msb.toNat + lsbs.toNat / 2 ^ (6 - 2 * j) % 4 := by
  unfold rawSample
  refine (append_toNat (n := 2) _ _).trans ?_
  simp [BitVec.extractLsb'_toNat, Nat.shiftRight_eq_div_pow]; omega

/-- A plane sample is two bytes, the low byte first (R123). -/
theorem sampleAt_eq (s : State) (c : Fin 4) (r k : Nat) :
    s.sampleAt c r k =
      (s.mem.read (sampleAddr (s.regs.planeBase c).toNat s.chWidth r k)).toNat
        + 256 * (s.mem.read (sampleAddr (s.regs.planeBase c).toNat s.chWidth r k + 1)).toNat := by
  unfold State.sampleAt Memory.readHalf le16
  rw [append_toNat]; omega

/-- MIDDLEc after the success effects of SAMPLE. -/
@[simp] theorem State.middleRegs_middle (s : State) (c : Fin 4) :
    s.middleRegs.middle c = BitVec.ofNat 32 (s.middleOf c) := by
  fin_cases c
  · exact State.middleRegs_middle0 s
  · exact State.middleRegs_middle1 s
  · exact State.middleRegs_middle2 s
  · exact State.middleRegs_middle3 s

/-! ## The corrected sample -/

/-- Cutting a natural number to n bits. -/
theorem truncInt_ofNat (n v : Nat) : truncInt n (v : Int) = v % 2 ^ n := by
  unfold truncInt
  rw [← Int.toNat_natCast (v % 2 ^ n)]; push_cast; rfl

/-- Cutting a small negative number to n bits. -/
theorem truncInt_neg (n v : Nat) (h : v ≤ 2 ^ n) (h0 : 0 < v) : truncInt n (-(v : Int)) = 2 ^ n - v := by
  have hv : (v : Int) ≤ ((2 ^ n : Nat) : Int) := by exact_mod_cast h
  have e : ((2 : Int) ^ n) = ((2 ^ n : Nat) : Int) := by push_cast; rfl
  have : (-(v : Int)) % (2 ^ n : Int) = (2 ^ n : Int) - v := by
    rw [← Int.add_emod_right, Int.emod_eq_of_lt] <;> omega
  unfold truncInt
  rw [this, e]; omega

/-- In range the correction is the same in every mode (R173). -/
theorem corr_of_le (r b : Nat) (h : b ≤ r) (m : UflowMode) : corr r b m = BitVec.ofNat 16 (blc r b) := by
  unfold corr; rw [if_pos h]

/-- The correction of a pixel never passes full scale (R178). -/
theorem blc_le (r b : Nat) (hb : b ≤ 1022) (h : r ≤ 1023) : blc r b ≤ 1023 := by
  unfold blc Config.maxValue
  refine Nat.div_le_of_le_mul ?_
  rw [Nat.mul_comm (1023 - b)]
  rw [Nat.mul_comm]
  exact Nat.mul_le_mul_left _ (by omega)

/-- A gain is a byte (R206). -/
theorem gain_le (num den : Nat) : gain num den ≤ 255 := by
  unfold gain
  split
  · split <;> omega
  · simp only [Config.gainMin, Config.gainMax]; omega

/-! ## Regions -/

/-- What the overlap test says (R79). -/
theorem regionsOverlap_iff (g h : Region) :
    regionsOverlap g h = true
      ↔ 0 < g.len ∧ 0 < h.len ∧ g.base < h.base + h.len ∧ h.base < g.base + g.len := by
  simp [regionsOverlap, and_assoc]

/-- What the range test says (R79). -/
theorem regionInRange_iff (g : Region) :
    regionInRange g = true ↔ g.base + g.len ≤ Config.addressLimit := by
  unfold regionInRange; exact decide_eq_true_iff

/-- An address is outside a region, or the region has it. -/
theorem regionHas_iff (g : Region) (a : Nat) :
    regionHas g a = true ↔ ¬ (a < g.base ∨ g.base + g.len ≤ a) := by
  simp only [regionHas, Bool.and_eq_true, decide_eq_true_eq]; omega

end Sys2Proof.Machine
end

