-- ==== Sys2Proof/Laws/Ops.lean ====
section
/-! SUPPORT. Once for each shared operation, all that it can do: completion, the error record, the scramble of a
footprint, the phases, the issue and the reset. -/

namespace Sys2Proof.Machine

/-! ## Registers by word index -/

/-- A register is found at its word index. -/
theorem regAt_regIndex (x : Reg) : regAt (regIndex x) = some x := by
  cases x with
  | planeBase c => revert c; decide
  | hdrName c => revert c; decide
  | middle c => revert c; decide
  | _ => decide

/-- A register that is found has that word index. -/
theorem regAt_some (idx : BitVec 10) (x : Reg) (h : regAt idx = some x) : regIndex x = idx := by
  simpa using List.find?_some h

/-- At an index that is no register's, none is found. -/
theorem regAt_none (idx : BitVec 10) (h : ∀ x, regIndex x ≠ idx) : regAt idx = none := by
  cases e : regAt idx with
  | none => rfl
  | some x => exact absurd (regAt_some _ _ e) (h x)

/-! ## Completion -/

/-- A completion without error changes nothing but STATUS. -/
theorem completeOk_eq (s : State) :
    completeOk s = s.setRegs (s.regs.setStatus (completeOk s).regs.status) := rfl

/-- Every bit of STATUS after a completion without error: DONE is set and BUSY cleared. -/
theorem completeOk_bit (s : State) (i : Nat) :
    (completeOk s).regs.status.getLsbD i =
      if i = 1 then true else if i = 0 then false else s.regs.status.getLsbD i := by
  simp only [completeOk, State.bit_setFlag, flagBit]
  split <;> split <;> simp_all

/-- A completion with an error changes nothing but STATUS and ERRCODE. -/
theorem completeError_eq (issued phase : BitVec 4) (code : ErrCode) (s : State) :
    completeError issued phase code s =
      s.setRegs ((s.regs.setStatus (completeError issued phase code s).regs.status).setErrcode
        (errWord issued phase code)) := rfl

/-- Every bit of STATUS after a completion with an error: ERR is set and BUSY cleared. -/
theorem completeError_bit (issued phase : BitVec 4) (code : ErrCode) (s : State) (i : Nat) :
    (completeError issued phase code s).regs.status.getLsbD i =
      if i = 2 then true else if i = 0 then false else s.regs.status.getLsbD i := by
  simp only [completeError, State.bit_setFlag, flagBit]
  split <;> split <;> simp_all

@[simp] theorem completeError_errcode (issued phase : BitVec 4) (code : ErrCode) (s : State) :
    (completeError issued phase code s).regs.errcode = errWord issued phase code := rfl

/-- A completion that answers a next state is one of the two. -/
theorem complete_cases (issued phase : BitVec 4) (r : PhaseResult) (t : State)
    (h : complete issued phase r = .next t) :
    (∃ s, r = .ok s ∧ t = completeOk s)
      ∨ ∃ s code, r = .error s code ∧ t = completeError issued phase code s := by
  cases r with
  | ok s => simp only [complete, Host.Outcome.next.injEq] at h; exact .inl ⟨s, rfl, h.symm⟩
  | error s code => simp only [complete, Host.Outcome.next.injEq] at h; exact .inr ⟨s, code, rfl, h.symm⟩
  | fault f => simp [complete] at h

/-! ## Scrambling a footprint -/

/-- A scramble leaves everything but memory and the count of draws, and every byte outside its regions. -/
theorem scramble_keeps (gs : List Region) (s : State) :
    (scramble s gs).regs = s.regs ∧ (scramble s gs).pending = s.pending
      ∧ (scramble s gs).script = s.script ∧ (scramble s gs).line = s.line
      ∧ (scramble s gs).schedule = s.schedule ∧ (scramble s gs).readData = s.readData
      ∧ (scramble s gs).loadData = s.loadData
      ∧ ∀ a, (∀ g ∈ gs, a < g.base ∨ g.base + g.len ≤ a) → (scramble s gs).mem.read a = s.mem.read a := by
  induction gs generalizing s with
  | nil => simp [scramble]
  | cons g gs ih =>
    obtain ⟨h1, h2, h3, h4, h5, h6, h7, h8⟩ := ih (scrambleRegion s g)
    refine ⟨h1, h2, h3, h4, h5, h6, h7, fun a ha => ?_⟩
    have hrest := h8 a fun g' hg' => ha g' (by simp [hg'])
    have hg := ha g (by simp)
    refine hrest.trans ?_
    simp only [scrambleRegion, State.setDraws_mem, State.setMem_mem, Memory.read_writeRange]
    rw [if_neg (by omega)]

/-- A scramble of regions in range keeps the memory canonical. -/
theorem scramble_wf (gs : List Region) (s : State) (hm : s.mem.wf = true)
    (hg : ∀ g ∈ gs, g.base + g.len ≤ Config.addressLimit) : (scramble s gs).mem.wf = true := by
  induction gs generalizing s with
  | nil => exact hm
  | cons g gs ih =>
    refine ih (scrambleRegion s g) ?_ fun g' hg' => hg g' (by simp [hg'])
    exact Memory.wf_writeRange _ _ _ _ hm (hg g (by simp))

/-! ## Phases -/

/-- PARSE ends in an error before the latch, in an error after it, or well. -/
theorem parsePhase_cases (s : State) :
    (∃ code, parsePrecheck s = some code ∧ parsePhase s = .error s code)
      ∨ (∃ code, parsePrecheck s = none ∧ parsePostcheck s.latchHeader = some code
          ∧ parsePhase s = .error s.latchHeader code)
      ∨ (parsePrecheck s = none ∧ parsePostcheck s.latchHeader = none
          ∧ parsePhase s = .ok (s.latchHeader.setFlag .hdrValid true)) := by
  unfold parsePhase
  cases h : parsePrecheck s with
  | some c => simp
  | none => cases h' : parsePostcheck s.latchHeader <;> simp

/-- UNPACK ends in an error with nothing changed, in a fault over an undefined frame, or well. -/
theorem unpackPhase_cases (s : State) :
    (∃ code, unpackCheck s = some code ∧ unpackPhase s = .error s code)
      ∨ (unpackCheck s = none ∧ s.frameDefined = false ∧ unpackPhase s = .fault .undefinedGeometry)
      ∨ (unpackCheck s = none ∧ s.frameDefined = true ∧ unpackPhase s = .ok (unpackEffects s)) := by
  unfold unpackPhase
  cases h : unpackCheck s with
  | some c => simp
  | none => cases h' : s.frameDefined <;> simp

/-- SAMPLE ends in an error with nothing changed, in a fault over an undefined grid, or well. -/
theorem samplePhase_cases (s : State) :
    (∃ code, sampleCheck s = some code ∧ samplePhase s = .error s code)
      ∨ (sampleCheck s = none ∧ s.gridDefined = false ∧ samplePhase s = .fault .undefinedGeometry)
      ∨ (sampleCheck s = none ∧ s.gridDefined = true ∧ samplePhase s = .ok (sampleEffects s)) := by
  unfold samplePhase
  cases h : sampleCheck s with
  | some c => simp
  | none => cases h' : s.gridDefined <;> simp

/-- A successful PARSE phase met the geometry limits and the order on the latched header. -/
theorem parsePostcheck_none (s : State) (h : parsePostcheck s = none) :
    s.formatMatches = true ∧ s.orderMatched = true ∧ s.geometryLegal = true := by
  unfold parsePostcheck at h
  simp only [Bool.not_eq_true] at h
  split at h
  · simp at h
  · split at h
    · simp at h
    · split at h
      · simp at h
      · simp_all

/-! ## Issue and reset -/

/-- Clearing validity flags changes nothing but STATUS. -/
theorem clearValidity_eq (i : Instr) (s : State) :
    clearValidity i s = s.setRegs (s.regs.setStatus (clearValidity i s).regs.status) := by
  cases i <;> rfl

/-- What issue clears, flag by flag. -/
theorem clearValidity_bit (i : Instr) (s : State) (n : Nat) :
    (clearValidity i s).regs.status.getLsbD n =
      if (n = 3 ∧ (i = .parse ∨ i = .run)) ∨ (n = 4 ∧ (i = .parse ∨ i = .run ∨ i = .unpack))
        ∨ (n = 5 ∧ (i = .parse ∨ i = .run ∨ i = .unpack ∨ i = .sample)) then false
      else s.regs.status.getLsbD n := by
  cases i <;> simp only [clearValidity, State.bit_setFlag, flagBit] <;>
    by_cases h3 : n = 3 <;> by_cases h4 : n = 4 <;> by_cases h5 : n = 5 <;> simp_all

/-- An accepted word changes nothing but STATUS, ERRCODE and the pending word. -/
theorem acceptCommand_eq (w : Word) (s : State) :
    acceptCommand w s =
      (s.setRegs ((s.regs.setStatus (acceptCommand w s).regs.status).setErrcode 0#32)).setPending
        (some w) := by
  unfold acceptCommand
  cases decodeCommand w <;> rfl

/-- While idle nothing is running and no footprint is. -/
theorem runningCommand_idle (s : State) (h : s.flag .busy = false) : s.runningCommand = none := by
  simp [State.runningCommand, h]

theorem runningWrites_idle (s : State) (h : s.flag .busy = false) : s.runningWrites = [] := by
  simp [State.runningWrites, runningCommand_idle s h]

/-- What a reset of the block leaves. -/
theorem resetBlock_spec (s : State) :
    (resetBlock s).regs = Regs.reset ∧ (resetBlock s).pending = none
      ∧ (resetBlock s).script = s.script ∧ (resetBlock s).line = s.line
      ∧ (resetBlock s).schedule = s.schedule ∧ (resetBlock s).readData = s.readData
      ∧ (resetBlock s).loadData = s.loadData
      ∧ ∀ a, (∀ g ∈ s.runningWrites, a < g.base ∨ g.base + g.len ≤ a) →
          (resetBlock s).mem.read a = s.mem.read a := by
  obtain ⟨-, -, h3, h4, h5, h6, h7, h8⟩ := scramble_keeps s.runningWrites s
  exact ⟨rfl, rfl, h3, h4, h5, h6, h7, h8⟩

/-- A reset while idle changes only the registers and the pending word. -/
theorem resetBlock_idle (s : State) (h : s.flag .busy = false) :
    resetBlock s = (s.setRegs Regs.reset).setPending none := by
  simp [resetBlock, runningWrites_idle s h, scramble]

end Sys2Proof.Machine
end

