-- ==== Sys2Proof/Laws/PerInstr.lean ====
section
/-! SUPPORT. Statements about every instruction as syntax, one lemma a constructor. -/

namespace Sys2Proof.Laws.EncodingWidth

/-- The width of an instruction's encoding: a command word has 32 bits, a transaction 64 (R100, R102, R106). -/
def Statement (i : Instr) : Prop :=
  (encode i).width = (match i with
    | .nop => 32
    | .parse => 32
    | .unpack => 32
    | .sample => 32
    | .run => 32
    | .softReset => 32
    | .illegalOpcode _ => 32
    | .illegalBits _ _ => 32
    | .regWrite _ _ => 64
    | .regRead _ => 64)

theorem nop : Statement .nop := rfl
theorem parse : Statement .parse := rfl
theorem unpack : Statement .unpack := rfl
theorem sample : Statement .sample := rfl
theorem run : Statement .run := rfl
theorem softReset : Statement .softReset := rfl
theorem illegalOpcode (op : BitVec 4) : Statement (.illegalOpcode op) := rfl
theorem illegalBits (rsv : BitVec 28) (op : BitVec 4) : Statement (.illegalBits rsv op) := rfl
theorem regWrite (idx : BitVec 10) (data : Word) : Statement (.regWrite idx data) := rfl
theorem regRead (idx : BitVec 10) : Statement (.regRead idx) := rfl

end Sys2Proof.Laws.EncodingWidth
end

