-- ==== Sys2Proof/Laws/Phases.lean ====
section
/-! SUPPORT. What the checks of a phase establish, what its effects leave in memory, and where the footprints
of a command lie. -/

namespace Sys2Proof.Machine

/-! ## Checks -/

/-- What UNPACK's checks establish for its effects: a valid header and planes in range. -/
theorem unpackCheck_none (s : State) (h : unpackCheck s = none) :
    s.flag .hdrValid = true
      ∧ (s.planeRegions (s.width / 2) (s.height / 2)).all regionInRange = true := by
  unfold unpackCheck at h
  dsimp only at h
  split at h
  · cases h
  · rename_i h0
    split at h
    · cases h
    · split at h
      · cases h
      · split at h
        · cases h
        · split at h
          · cases h
          · rename_i h1; exact ⟨by simpa using h0, by simpa using h1⟩

/-- What SAMPLE's checks establish for its effects: both validity flags and a table in range. -/
theorem sampleCheck_none (s : State) (h : sampleCheck s = none) :
    s.flag .hdrValid = true ∧ s.flag .planesValid = true ∧ regionInRange s.tableRegion = true := by
  unfold sampleCheck at h
  dsimp only at h
  split at h
  · cases h
  · rename_i h0
    split at h
    · cases h
    · split at h
      · cases h
      · rename_i h1
        simp only [not_or, Bool.not_eq_true, Bool.not_eq_false] at h0 h1
        exact ⟨h0.1, h0.2, h1⟩

/-- Each plane region is one of the four. -/
theorem mem_planeRegions (s : State) (cw ch : Nat) (g : Region) :
    g ∈ s.planeRegions cw ch ↔ ∃ c, g = s.planeRegion cw ch c := by
  simp only [State.planeRegions, List.mem_cons, List.not_mem_nil, or_false, Fin.exists_fin_succ]
  simp

/-! ## Memory -/

/-- UNPACK's effects leave every byte outside the four planes. -/
theorem unpackEffects_read (s : State) (a : Nat)
    (h : ∀ c, a < (s.planeRegion (s.width / 2) (s.height / 2) c).base
      ∨ (s.planeRegion (s.width / 2) (s.height / 2) c).base
        + (s.planeRegion (s.width / 2) (s.height / 2) c).len ≤ a) :
    (unpackEffects s).mem.read a = s.mem.read a := by
  have h0 := h 0; have h1 := h 1; have h2 := h 2; have h3 := h 3
  simp only [State.planeRegion] at h0 h1 h2 h3
  show s.planesWritten.read a = _
  simp only [State.planesWritten, Memory.read_writeRange]
  rw [if_neg (by omega), if_neg (by omega), if_neg (by omega), if_neg (by omega)]

/-- SAMPLE's effects leave every byte outside the gain table. -/
theorem sampleEffects_read (s : State) (a : Nat)
    (h : a < s.tableRegion.base ∨ s.tableRegion.base + s.tableRegion.len ≤ a) :
    (sampleEffects s).mem.read a = s.mem.read a := by
  simp only [State.tableRegion] at h
  show s.tableWritten.read a = _
  simp only [State.tableWritten, Memory.read_writeRange]
  rw [if_neg (by omega)]

/-- UNPACK's effects keep the memory canonical. -/
theorem unpackEffects_wf (s : State) (hm : s.mem.wf = true) (h : unpackCheck s = none) :
    (unpackEffects s).mem.wf = true := by
  have hp := (unpackCheck_none s h).2
  have key : ∀ c, (s.regs.planeBase c).toNat + 2 * (s.width / 2) * (s.height / 2) ≤ Config.addressLimit :=
    fun c => (regionInRange_iff _).mp
      (List.all_eq_true.mp hp (s.planeRegion _ _ c) ((mem_planeRegions s _ _ _).mpr ⟨c, rfl⟩))
  have m0 := Memory.wf_writeRange _ _ _ (s.unpackedByte (s.width / 2) 0) hm (key 0)
  have m1 := Memory.wf_writeRange _ _ _ (s.unpackedByte (s.width / 2) 1) m0 (key 1)
  have m2 := Memory.wf_writeRange _ _ _ (s.unpackedByte (s.width / 2) 2) m1 (key 2)
  exact Memory.wf_writeRange _ _ _ (s.unpackedByte (s.width / 2) 3) m2 (key 3)

/-- SAMPLE's effects keep the memory canonical. -/
theorem sampleEffects_wf (s : State) (hm : s.mem.wf = true) (h : sampleCheck s = none) :
    (sampleEffects s).mem.wf = true :=
  Memory.wf_writeRange _ _ _ _ hm ((regionInRange_iff _).mp (sampleCheck_none s h).2.2)

/-! ## Footprints -/

/-- UNPACK's write footprint lies in the address space. -/
theorem unpackWrites_inRange (s : State) (g : Region) (h : g ∈ unpackWrites s) :
    g.base + g.len ≤ Config.addressLimit := by
  unfold unpackWrites at h
  split at h
  · simp at h
  · rename_i hc
    exact (regionInRange_iff g).mp (List.all_eq_true.mp (unpackCheck_none s hc).2 g h)

/-- SAMPLE's write footprint lies in the address space. -/
theorem sampleWrites_inRange (s : State) (g : Region) (h : g ∈ sampleWrites s) :
    g.base + g.len ≤ Config.addressLimit := by
  unfold sampleWrites at h
  split at h
  · simp at h
  · rename_i hc
    rw [List.mem_singleton] at h
    subst h
    exact (regionInRange_iff _).mp (sampleCheck_none s hc).2.2

/-- The write footprint of any command lies in the address space. -/
theorem writeFootprint_inRange (i : Instr) (s : State) (g : Region) (h : g ∈ writeFootprint i s) :
    g.base + g.len ≤ Config.addressLimit := by
  cases i <;> simp only [writeFootprint] at h
  case unpack => exact unpackWrites_inRange s g h
  case sample => exact sampleWrites_inRange s g h
  case run =>
    unfold runWrites at h
    split at h
    · split at h
      · simp at h
      · rcases List.mem_append.mp h with h | h
        · exact unpackWrites_inRange _ g h
        · exact sampleWrites_inRange _ g h
    · simp at h
    · simp at h
  all_goals simp at h

/-- After UNPACK's effects SAMPLE's checks answer as its footprint assumes (R80, R244). -/
theorem sampleCheck_unpackEffects (s : State) :
    sampleCheck (unpackEffects s) = sampleCheck (afterUnpack s) := by
  have f1 : (unpackEffects s).flag .hdrValid = (afterUnpack s).flag .hdrValid := by
    simp [unpackEffects, afterUnpack, State.flag_setFlag]
  have f2 : (unpackEffects s).flag .planesValid = (afterUnpack s).flag .planesValid := by
    simp [unpackEffects, afterUnpack, State.flag_setFlag]
  unfold sampleCheck
  rw [f1, f2]; rfl

/-! ## The order of events does not matter to a footprint -/

theorem parsePhase_setSchedule (s : State) (q : List Turn) :
    parsePhase (s.setSchedule q) =
      match parsePhase s with
      | .ok t => .ok (t.setSchedule q)
      | .error t c => .error (t.setSchedule q) c
      | .fault f => .fault f := by
  unfold parsePhase
  rw [show parsePrecheck (s.setSchedule q) = parsePrecheck s from rfl,
    show (s.setSchedule q).latchHeader = s.latchHeader.setSchedule q from rfl,
    show parsePostcheck (s.latchHeader.setSchedule q) = parsePostcheck s.latchHeader from rfl]
  cases parsePrecheck s with
  | some c => rfl
  | none => cases parsePostcheck s.latchHeader <;> rfl

theorem unpackCheck_setSchedule (s : State) (q : List Turn) :
    unpackCheck (s.setSchedule q) = unpackCheck s := rfl

theorem sampleCheck_setSchedule (s : State) (q : List Turn) :
    sampleCheck (s.setSchedule q) = sampleCheck s := rfl

theorem unpackWrites_setSchedule (s : State) (q : List Turn) :
    unpackWrites (s.setSchedule q) = unpackWrites s := by
  unfold unpackWrites; rw [unpackCheck_setSchedule]; rfl

theorem unpackReads_setSchedule (s : State) (q : List Turn) :
    unpackReads (s.setSchedule q) = unpackReads s := by
  unfold unpackReads; rw [unpackCheck_setSchedule]; rfl

theorem sampleWrites_setSchedule (s : State) (q : List Turn) :
    sampleWrites (s.setSchedule q) = sampleWrites s := by
  unfold sampleWrites; rw [sampleCheck_setSchedule]; rfl

theorem sampleReads_setSchedule (s : State) (q : List Turn) :
    sampleReads (s.setSchedule q) = sampleReads s := by
  unfold sampleReads; rw [sampleCheck_setSchedule]; rfl

theorem afterUnpack_setSchedule (s : State) (q : List Turn) :
    afterUnpack (s.setSchedule q) = (afterUnpack s).setSchedule q := rfl

theorem runWrites_setSchedule (s : State) (q : List Turn) :
    runWrites (s.setSchedule q) = runWrites s := by
  unfold runWrites
  rw [parsePhase_setSchedule]
  cases parsePhase s <;>
    simp only [unpackCheck_setSchedule, unpackWrites_setSchedule, afterUnpack_setSchedule,
      sampleWrites_setSchedule]

theorem runReads_setSchedule (s : State) (q : List Turn) : runReads (s.setSchedule q) = runReads s := by
  unfold runReads
  rw [parsePhase_setSchedule]
  cases parsePhase s <;>
    simp only [unpackCheck_setSchedule, unpackReads_setSchedule, afterUnpack_setSchedule,
      sampleReads_setSchedule]
  all_goals rfl

/-- The running command's write footprint does not depend on the order of the coming events. -/
@[simp] theorem runningWrites_setSchedule (s : State) (q : List Turn) :
    (s.setSchedule q).runningWrites = s.runningWrites := by
  unfold State.runningWrites
  rw [show (s.setSchedule q).runningCommand = s.runningCommand from rfl]
  cases s.runningCommand with
  | none => rfl
  | some i =>
    cases i <;> simp only [writeFootprint, unpackWrites_setSchedule, sampleWrites_setSchedule,
      runWrites_setSchedule]

/-- Nor does its read footprint. -/
@[simp] theorem runningReads_setSchedule (s : State) (q : List Turn) :
    (s.setSchedule q).runningReads = s.runningReads := by
  unfold State.runningReads
  rw [show (s.setSchedule q).runningCommand = s.runningCommand from rfl]
  cases s.runningCommand with
  | none => rfl
  | some i =>
    cases i <;> simp only [readFootprint, unpackReads_setSchedule, sampleReads_setSchedule,
      runReads_setSchedule]
    rfl

end Sys2Proof.Machine
end

