-- ==== Sys2Proof/Tests/Slice0.lean ====
section
/-! SUPPORT. Tests. Expected values come from spec/95_test_vectors_programs.md, named by its sections, or are
worked out by hand from the encoding tables; the witnesses at the end show that the statements' hypotheses can be
met. -/

namespace Sys2Proof.Tests

open Sys2Proof Sys2Proof.Machine Sys2Proof.Claims

/-! ## Well-formedness: each check refuses an ill-formed term -/

theorem test_illegalOpcode_below_is_illFormed : (Instr.illegalOpcode 4#4).wellFormed = false := by decide
theorem test_illegalOpcode_above_is_illFormed : (Instr.illegalOpcode 15#4).wellFormed = false := by decide
theorem test_illegalOpcode_5_is_wellFormed : (Instr.illegalOpcode 5#4).wellFormed = true := by decide
theorem test_illegalOpcode_14_is_wellFormed : (Instr.illegalOpcode 14#4).wellFormed = true := by decide
theorem test_illegalBits_zero_is_illFormed : (Instr.illegalBits 0#28 5#4).wellFormed = false := by decide

/-! ## Decoding: words written out from spec/30_encoding.md R100, R102 to R105 (L2.1, L2.2) -/

theorem test_decode_nop : decodeCommand 0b00000000000000000000000000000000#32 = .nop := by decide
theorem test_decode_parse : decodeCommand 0b00000000000000000000000000000001#32 = .parse := by decide
theorem test_decode_unpack : decodeCommand 0b00000000000000000000000000000010#32 = .unpack := by decide
theorem test_decode_sample : decodeCommand 0b00000000000000000000000000000011#32 = .sample := by decide
theorem test_decode_run : decodeCommand 0b00000000000000000000000000000100#32 = .run := by decide
theorem test_decode_softReset : decodeCommand 0b00000000000000000000000000001111#32 = .softReset := by decide
theorem test_decode_opcode5 : decodeCommand 0x00000005#32 = .illegalOpcode 5#4 := by decide
theorem test_decode_opcodeE : decodeCommand 0x0000000E#32 = .illegalOpcode 14#4 := by decide
theorem test_decode_bits_parse : decodeCommand 0x80000001#32 = .illegalBits 0x8000000#28 1#4 := by decide
theorem test_decode_bits_reset : decodeCommand 0x0000001F#32 = .illegalBits 1#28 15#4 := by decide
theorem test_decode_bits_105 : decodeCommand 0x00000105#32 = .illegalBits 0x10#28 5#4 := by decide

/-- W = 1, T[62:42] = 0, IDX = 0000000101, DATA = 0x12345: `WR BLACK_LEVEL, 0x12345` (L2.1 row 8). -/
theorem test_decode_regWrite : decodePacket 0x8000000500012345#64 = .ok (.regWrite 5#10 0x12345#32) := by decide

/-- `RD @0xFFC` (L2.1 row 7). -/
theorem test_decode_regRead : decodePacket 0x000003FF00000000#64 = .ok (.regRead 0x3FF#10) := by decide
theorem test_decode_reserved_low : decodePacket 0x8000040000000000#64 = .error .reservedBitsSet := by decide
theorem test_decode_reserved_high : decodePacket 0x4000000000000000#64 = .error .reservedBitsSet := by decide
theorem test_decode_read_data : decodePacket 0x0000000300000001#64 = .error .readWithData := by decide

/-- `WR @0xFFC, 1` and `RD @0x044` spell the packets of R107; 0x1000 and 0x046 are no offsets. -/
theorem test_script_offset :
    lineWr (.offset 0xFFC) 1#32 = .bus 0x800003FF00000001#64 ∧ lineRd (.offset 0x044) = .bus 0x0000001100000000#64
      ∧ (ScriptReg.offset 0x1000).wellFormed = false ∧ (ScriptReg.offset 0x046).wellFormed = false := by decide

theorem test_decode_other_width : decodeTableWord 16 1 = none := by decide

/-! ## Values -/

/-- L2.4.1, the group FF 00 12 AB D8. -/
theorem test_unpack5 :
    unpack5 0xFF#8 0x00#8 0x12#8 0xAB#8 0xD8#8 = (1023#10, 1#10, 74#10, 684#10) := by decide

/-- L1.1: blc(512, 16) = 503 and blc(500, 64) = 465. -/
theorem test_corr_inRange : corr 512 16 .clamp = 503#16 ∧ corr 500 64 .wrap = 465#16 := by decide

/-- L2.4.3: r = 8 under b = 16 in the three modes. -/
theorem test_corr_under :
    corr 8 16 .clamp = 0#16 ∧ corr 8 16 .wrap = 5263#16 ∧ corr 8 16 .signed = 65528#16 := by decide

/-- L2.4.3: r = 0 under b = 511, and r = 0 under b = 1022. -/
theorem test_corr_far :
    corr 0 511 .wrap = 0xFC02#16 ∧ corr 0 511 .signed = 0xFC03#16 ∧ corr 0 1022 .wrap = 3070#16 := by decide

/-- L2.3: strides, among them the corner that a floor reading gets wrong. -/
theorem test_stride :
    strideOf 24 2 = 64 ∧ strideOf 24 1 = 32 ∧ strideOf 3280 8 = 4128 ∧ strideOf 65535 65535 = 163840 := by
  decide

/-- L1.3: the ceiling division law. -/
theorem test_grid :
    gridOf 0 = 0 ∧ gridOf 32 = 1 ∧ gridOf 33 = 2 ∧ gridOf 1232 = 39 ∧ gridOf 1640 = 52 := by decide

/-- L2.5.1: the gain function. -/
theorem test_gain :
    gain 32192 1006 = 32 ∧ gain 6499 100 = 64 ∧ gain 25599 100 = 255 ∧ gain 25600 100 = 255
      ∧ gain 3199 100 = 32 ∧ gain 100 0 = 255 ∧ gain 0 0 = 32 := by decide

/-! ## One step -/

/-- The answer of an outcome that is a next state. -/
def holds (o : Host.Outcome State Fault Refusal) (p : State → Bool) : Bool :=
  match o with
  | .next t => p t
  | .fault _ => false
  | .refused _ => false

/-- Reset, then the STATUS and ERRCODE given. -/
def withStatus (st err : Word) : State :=
  State.reset.setRegs ((Regs.reset.setStatus st).setErrcode err)

/-- L2.1 row 16: W1C of STATUS. -/
theorem test_w1c :
    holds (exec (.regWrite 3#10 0xFFFFFFFF#32) (withStatus 0x000041FE#32 0x1101#32))
      (fun t => t.regs.status = 0x00004038#32 ∧ t.regs.errcode = 0#32) = true := by decide

/-- L2.1 rows 9 and 10: UFLOW_MODE 3 stores 0. -/
theorem test_write_ctrl :
    holds (exec (.regWrite 1#10 0xFFFFFFFF#32) State.reset) (fun t => t.regs.ctrl = 3#32) = true := by decide

/-- L2.1 row 1, and row 7. -/
theorem test_read :
    holds (exec (.regRead 0#10) State.reset) (fun t => t.readData = 0x4C534331#32) = true
      ∧ holds (exec (.regRead 0x3FF#10) State.reset) (fun t => t.readData = 0#32) = true := by decide

/-- L2.2: what issue leaves in STATUS from 0x3A, for UNPACK and SAMPLE. -/
theorem test_issue :
    holds (exec (.regWrite 2#10 2#32) (withStatus 0x3A#32 0#32)) (fun t => t.regs.status = 0x2009#32) = true
      ∧ holds (exec (.regWrite 2#10 3#32) (withStatus 0x3A#32 0#32)) (fun t => t.regs.status = 0x3019#32)
        = true := by decide

/-- L2.2: the two ILLEGAL rows after their completion steps. -/
theorem test_illegal :
    holds (exec (.illegalOpcode 7#4) (withStatus 0x7039#32 0#32))
        (fun t => t.regs.status = 0x0000703C#32 ∧ t.regs.errcode = 0x00007709#32) = true
      ∧ holds (exec (.illegalBits 0x8000000#28 1#4) (withStatus 0x1039#32 0#32))
        (fun t => t.regs.status = 0x0000103C#32 ∧ t.regs.errcode = 0x00001109#32) = true := by decide

/-- L2.2: NOP. -/
theorem test_nop :
    holds (exec .nop (withStatus 0x39#32 0#32)) (fun t => t.regs.status = 0x3A#32) = true := by decide

/-- L2.1 row 23 and L2.2: SOFT_RESET. -/
theorem test_softReset :
    holds (exec .softReset (withStatus 0x4001#32 0#32))
      (fun t => t.regs.status = 0#32 ∧ t.regs.pixOff = 0x8000#32) = true := by decide

/-! ## A small capture: the smallest legal frame, 20 × 18 (L2.3 row 14) -/

/-- The tag, the header record at 0xB0 and the first group of the first scanline, 80 80 80 80 1B. -/
def captureBytes : Memory :=
  [(0, 0x42#8), (1, 0x52#8), (2, 0x43#8), (3, 0x4D#8), (0xD0, 0x14#8), (0xD2, 0x12#8), (0xF2, 0x21#8),
    (0xF5, 0x03#8), (0x100, 0x80#8), (0x101, 0x80#8), (0x102, 0x80#8), (0x103, 0x80#8), (0x104, 0x1B#8)]

/-- Everything configured for that capture, with black level 0. -/
def frame : State :=
  { State.reset with
    mem := captureBytes
    regs := { Regs.reset with
      blackLevel := 0#32
      srcLen := 0x400#32
      pixOff := 0x100#32
      fmtCodes := 0x00030021#32
      orderCodes := 0x02010300#32
      planeBase0 := 0x1000#32
      planeBase1 := 0x1100#32
      planeBase2 := 0x1200#32
      planeBase3 := 0x1300#32
      gtBase := 0x2000#32 } }

/-- That frame with the header latched and the given STATUS. -/
def latchedFrame (st : Word) : State :=
  frame.setRegs { frame.regs with
    status := st
    hdrDim := 0x00120014#32
    hdrFmt := 0x00210000#32
    hdrBayer := 0x00000300#32
    stride := 0x20#32
    chDim := 0x0009000A#32
    gridDim := 0x00010001#32
    bayerOrder := 0x80000000#32 }

/-- The frame parsed: HDR_VALID. -/
def parsed : State := latchedFrame 0x8#32

/-- The frame with HDR_VALID and PLANES_VALID, all four planes zero. -/
def unpacked : State := latchedFrame 0x18#32

/-- A command in progress. -/
def busyWith (w : Word) (s : State) : State :=
  ((s.setPending (some w)).setFlag .busy true).setCurOp (w.extractLsb' 0 4)

/-- L2.3 row 14. -/
theorem test_parse :
    holds (exec .parse frame) (fun t =>
      t.regs.status = 0xA#32 ∧ t.regs.hdrDim = 0x00120014#32 ∧ t.regs.stride = 0x20#32
        ∧ t.regs.chDim = 0x0009000A#32 ∧ t.regs.gridDim = 0x00010001#32
        ∧ t.regs.bayerOrder = 0x80000000#32) = true := by decide +kernel

/-- L2.3 rows 2 and 10: MAGIC for a short source, ORDER with the header latched. -/
theorem test_parse_errors :
    holds (exec .parse (frame.setRegs { frame.regs with srcLen := 3#32 }))
        (fun t => t.regs.errcode = 0x1101#32 ∧ t.regs.hdrDim = 0#32) = true
      ∧ holds (exec .parse (frame.setRegs { frame.regs with orderCodes := 0x02010307#32 }))
        (fun t => t.regs.errcode = 0x1103#32 ∧ t.regs.hdrDim = 0x00120014#32
          ∧ t.regs.bayerOrder = 0#32) = true := by decide +kernel

/-- Pixels 512, 513, 514 and 515 of row 0 go to planes 0, 1, 0, 1 (R172), low byte first. -/
theorem test_unpack :
    holds (exec .unpack parsed) (fun t =>
      t.regs.status = 0x1A#32 ∧ t.mem.readHalf 0x1000 = 512#16 ∧ t.mem.readHalf 0x1100 = 513#16
        ∧ t.mem.readHalf 0x1002 = 514#16 ∧ t.mem.readHalf 0x1102 = 515#16
        ∧ t.mem.read 0x1200 = 0#8) = true := by decide +kernel

/-- L2.4.5 row 2, and row 8. -/
theorem test_unpack_errors :
    holds (exec .unpack frame) (fun t => t.regs.errcode = 0x2208#32) = true
      ∧ holds (exec .unpack (parsed.setRegs { parsed.regs with planeBase1 := 0x10B3#32 }))
        (fun t => t.regs.errcode = 0x2206#32) = true := by decide +kernel

/-- Planes of zeros: every sum is 0 and every gain 32, with DIV0 (R207, R215). -/
theorem test_sample :
    holds (exec .sample unpacked) (fun t =>
      t.regs.status = 0xBA#32 ∧ t.mem.readHalf 0x2000 = 0x2020#16 ∧ t.mem.readHalf 0x2002 = 0x2020#16
        ∧ t.mem.read 0x2004 = 0#8 ∧ t.regs.middle0 = 0#32) = true := by decide +kernel

/-- L2.5.3 row 2. -/
theorem test_sample_errors :
    holds (exec .sample parsed) (fun t => t.regs.errcode = 0x3308#32) = true := by decide +kernel

/-- RUN over the same frame, by hand: planes 0 and 1 hold 514 and 515 at (0, 1), inside their patches, so that the
means are 6 and the middles 192; the edge samples of row 8 are 0, so that their gains are 255 and those of planes 2
and 3, over zero sums with zero middles, 32 (R201, R207). -/
theorem test_run :
    holds (exec .run frame) (fun t =>
      t.regs.status = 0xBA#32 ∧ t.mem.readHalf 0x1000 = 512#16
        ∧ t.regs.middle1 = 192#32 ∧ t.mem.readHalf 0x2000 = 0xFFFF#16
        ∧ t.mem.readHalf 0x2002 = 0x2020#16) = true := by decide +kernel

/-- L2.6 row 2: RUN stopped in SAMPLE. -/
theorem test_run_stops :
    holds (exec .run (frame.setRegs { frame.regs with gtBase := 0x1000#32 })) (fun t =>
      t.regs.status = 0x1C#32 ∧ t.regs.errcode = 0x4306#32 ∧ t.mem.readHalf 0x1000 = 512#16) = true := by
  decide +kernel

/-! ## Witnesses: the hypotheses of each statement can be met

Each theorem is named after its statement; where a statement has several clauses, there is a witness for each, at a
boundary of its range. -/

theorem witness_DecodeOfEncode :
    (Instr.illegalOpcode 5#4).wellFormed = true ∧ (Instr.illegalOpcode 14#4).wellFormed = true
      ∧ (Instr.illegalBits 1#28 0#4).wellFormed = true ∧ (Instr.regWrite 0x3FF#10 0#32).wellFormed = true := by
  decide

theorem witness_EncodeOfDecode :
    decodePacket 0x800003FFFFFFFFFF#64 = .ok (.regWrite 0x3FF#10 0xFFFFFFFF#32) := by decide

/-- A host whose one line is given, and whose turn is next. -/
def hostAt (l : Line) (s : State) : State := { s with script := [l], schedule := [.host] }

theorem witness_NonTransactionsAreRefused :
    (hostAt (.bus 0x4000000000000000#64) State.reset).schedule = [.host]
      ∧ (hostAt (.bus 0x4000000000000000#64) State.reset).script[0]? = some (.bus 0x4000000000000000#64)
      ∧ (0x4000000000000000#64).extractLsb' 42 21 ≠ 0#21
      ∧ (0x0000040000000000#64).extractLsb' 42 21 ≠ 0#21
      ∧ (0x0000000000000001#64).getLsbD 63 = false ∧ (0x0000000000000001#64).extractLsb' 0 32 ≠ 0#32 := by
  decide

theorem witness_OtherWordsSpellIllegal :
    5 ≤ (5#4).toNat ∧ (5#4).toNat ≤ 14 ∧ 5 ≤ (14#4).toNat ∧ (14#4).toNat ≤ 14 ∧ 1#28 ≠ 0#28 := by decide

theorem witness_RegisterMapIsTheTable :
    mapOffset (.middle 3) = 0x0CC ∧ ∀ x, mapOffset x ≠ (0x3FF#10).toNat * 4 := by
  refine ⟨rfl, fun x => ?_⟩
  cases x with
  | planeBase c => have := c.isLt; show 0x030 + 4 * c.val ≠ 0xFFC; omega
  | hdrName i => have := i.isLt; show 0x080 + 4 * i.val ≠ 0xFFC; omega
  | middle c => have := c.isLt; show 0x0C0 + 4 * c.val ≠ 0xFFC; omega
  | _ => decide

theorem witness_ScriptLinesSpellTheirPackets :
    (ScriptReg.offset 0).wellFormed = true ∧ (ScriptReg.offset 0xFFC).wellFormed = true
      ∧ encode .run = .command 4#32 := by decide

theorem witness_HostTurnRunsThePacket :
    (hostAt (lineRd (.name .id)) State.reset).schedule = .host :: State.reset.schedule
      ∧ (hostAt (lineRd (.name .id)) State.reset).script[0]? = some (.bus 0#64)
      ∧ decodePacket 0#64 = .ok (.regRead 0#10)
      ∧ State.reset.schedule = [] ∧ stBit State.reset 0 = false := by decide

theorem witness_EngineTurnRunsThePendingCommand :
    State.reset.pending = none ∧ (busyWith 0#32 State.reset).pending = some 0#32 ∧ stBit (busyWith 0#32 State.reset) 0 = true
      ∧ (busyWith 0#32 State.reset).schedule = []
      ∧ ((busyWith 0#32 State.reset).setSchedule [.engine]).schedule = [.engine]
      ∧ stBit (State.reset.setSchedule [.engine]) 0 = false
      ∧ (State.reset.setSchedule [.engine]).schedule = [.engine] := by decide

theorem witness_PlacedWordIsRunNext :
    decodeTableWord 32 0xF = some .softReset ∧ decodeTableWord 32 5 = some (.illegalOpcode 5#4)
      ∧ decodeTableWord 64 0x8000000200000004 = some (.regWrite 2#10 4#32) := by decide

theorem witness_PollStaysUntilItHolds :
    (hostAt lineWait State.reset).script[0]? = some (.poll 3#10 1#32 0#32)
      ∧ holds (exec (.regRead 3#10) ((hostAt lineWait State.reset).setSchedule [])) (fun v => v.readData = 0#32)
        = true := by decide

theorem witness_EndedRunStaysEnded : State.reset.schedule = [] ∧ State.reset.ended = true := by decide

theorem witness_IdleWriteStoresWholeRegister :
    stBit State.reset 0 = false ∧ wholeWritten (.planeBase 3) ∧ (15#10).toNat * 4 = mapOffset (.planeBase 3)
      ∧ wholeWritten .gtBase ∧ (16#10).toNat * 4 = mapOffset .gtBase :=
  ⟨by decide, .inl ⟨3, rfl⟩, by decide, .inr (by decide), by decide⟩

theorem witness_IdleWriteStoresFields : stBit State.reset 0 = false := by decide

theorem witness_IdleWriteElsewhereIsIgnored :
    stBit State.reset 0 = false ∧ (0#10).toNat * 4 = 0x000 ∧ (4#10).toNat * 4 = 0x010
      ∧ 0x044 ≤ (0x011#10).toNat * 4 ∧ 0x044 ≤ (0x3FF#10).toNat * 4 := by decide

theorem witness_StatusWriteClearsFlags : stBit (withStatus 0x41FE#32 0x1101#32) 0 = false := by decide

theorem witness_BusyWriteOnlySetsWbusy :
    stBit (withStatus 1#32 0#32) 0 = true ∧ ¬ (2#10 = 2#10 ∧ 0x1F#32 = 0x0000000F#32)
      ∧ ¬ (3#10 = 2#10 ∧ 0x0F#32 = 0x0000000F#32) := by decide

theorem witness_IdleReadReturnsTheValue :
    stBit State.reset 0 = false ∧ mapOffset .id = (0#10).toNat * 4
      ∧ ∀ x, mapOffset x ≠ (0x3FF#10).toNat * 4 :=
  ⟨by decide, rfl, witness_RegisterMapIsTheTable.2⟩

theorem witness_BusyReadReturnsValueWhereSpecified :
    stBit (busyWith 1#32 State.reset) 0 = true ∧ (busyWith 1#32 State.reset).pending = some 1#32
      ∧ ¬ parseMayWrite .srcBase ∧ ¬ (((1#32 = 3#32) ∨ 1#32 = 4#32) ∧ ∃ c, Reg.srcBase = .middle c)
      ∧ mapOffset .srcBase = (6#10).toNat * 4 ∧ parseMayWrite (.hdrName 7)
      ∧ ∀ x, mapOffset x ≠ (0x3FF#10).toNat * 4 := by
  refine ⟨by decide, rfl, ?_, by simp, rfl, .inl ⟨7, rfl⟩, witness_RegisterMapIsTheTable.2⟩
  rintro (⟨i, h⟩ | h)
  · cases h
  · exact absurd h (by decide)

theorem witness_IssueAcceptsTheWord :
    stBit (withStatus 0x3A#32 0#32) 0 = false ∧ 4#32 ≠ 0x0000000F#32 ∧ 0x1F#32 ≠ 0x0000000F#32 := by decide

theorem witness_SoftResetResetsTheBlock :
    stBit State.reset 0 = false ∧ ∀ g ∈ State.reset.runningWrites, outside g.base g.len 0 := by
  refine ⟨by decide, fun g hg => ?_⟩
  rw [runningWrites_idle _ (by decide)] at hg
  exact absurd hg List.not_mem_nil

/-- While UNPACK runs, an address outside its four planes, and one inside. -/
theorem witness_SoftResetResetsTheBlock_busy :
    (busyWith 2#32 parsed).runningWrites.length = 4
      ∧ inRegions (busyWith 2#32 parsed).runningWrites 0x10B4#32 = false
      ∧ inRegions (busyWith 2#32 parsed).runningWrites 0x10B3#32 = true := by decide +kernel

theorem witness_ResetInputActsAsSoftReset :
    (State.reset.setSchedule [.reset]).schedule = [.reset] := rfl

theorem witness_NopCompletesWithDone : stBit State.reset 2 = false := by decide

theorem witness_IllegalWordsCompleteWithError : stBit State.reset 1 = false := by decide

theorem witness_headerReadable : headerReadable frame := by unfold headerReadable tagPresent; decide +kernel

theorem witness_orderFound : orderFound frame 0 := by unfold orderFound; decide +kernel

theorem witness_ParseLatchesAValidHeader :
    headerReadable frame ∧ formatAgrees frame ∧ orderFound frame 0 ∧ geometryAgrees frame := by
  refine ⟨witness_headerReadable, ?_, witness_orderFound, ?_⟩
  · unfold formatAgrees; decide +kernel
  · unfold geometryAgrees; decide +kernel

/-- The source one byte short of the header, the source of three bytes, the source past 2^32, the tag gone. -/
theorem witness_ParseFailsBeforeTheLatch :
    ¬ headerReadable (frame.setRegs { frame.regs with srcLen := 0xF5#32 })
      ∧ ¬ headerReadable (frame.setRegs { frame.regs with srcLen := 3#32 })
      ∧ ¬ headerReadable (frame.setRegs { frame.regs with srcBase := 0xFFFFFFFE#32, srcLen := 3#32 })
      ∧ ¬ headerReadable (frame.setRegs { frame.regs with srcBase := 1#32 }) := by
  unfold headerReadable tagPresent; decide +kernel

/-- A frame whose header is readable and whose code, order or geometry does not agree. -/
theorem witness_ParseFailsAfterTheLatch :
    headerReadable (frame.setRegs { frame.regs with fmtCodes := 0#32 })
      ∧ ¬ formatAgrees (frame.setRegs { frame.regs with fmtCodes := 0#32 })
      ∧ headerReadable (frame.setMem (frame.mem.write 0xF4 7#8))
      ∧ formatAgrees (frame.setMem (frame.mem.write 0xF4 7#8))
      ∧ (∀ k, ¬ orderFound (frame.setMem (frame.mem.write 0xF4 7#8)) k)
      ∧ headerReadable (frame.setMem (frame.mem.write 0xD2 0x10#8))
      ∧ formatAgrees (frame.setMem (frame.mem.write 0xD2 0x10#8))
      ∧ orderFound (frame.setMem (frame.mem.write 0xD2 0x10#8)) 0
      ∧ ¬ geometryAgrees (frame.setMem (frame.mem.write 0xD2 0x10#8)) := by
  have h : ∀ k : Fin 4, orderByte (frame.setMem (frame.mem.write 0xF4 7#8)) k.val
      ≠ Claims.hdr (frame.setMem (frame.mem.write 0xF4 7#8)) 68 := by decide +kernel
  refine ⟨?_, ?_, ?_, ?_, fun k hk => h ⟨k, hk.1⟩ hk.2.1, ?_, ?_, ?_, ?_⟩
  · unfold headerReadable tagPresent; decide +kernel
  · unfold formatAgrees; decide +kernel
  · unfold headerReadable tagPresent; decide +kernel
  · unfold formatAgrees; decide +kernel
  · unfold headerReadable tagPresent; decide +kernel
  · unfold formatAgrees; decide +kernel
  · unfold orderFound; decide +kernel
  · unfold geometryAgrees; decide +kernel

theorem witness_StrideIsLeastMultiple : 64 % 32 = 0 ∧ (24 + 2) * 5 ≤ 4 * 64 := by decide

theorem witness_BlackLevelCorrectionLaws : 1022 ≤ 1022 ∧ 1022 ≤ 1023 ∧ 16 ≤ 17 := by decide

theorem witness_UnderflowFollowsItsMode : 1021 < 1022 ∧ 1022 ≤ 1022 ∧ 0 < 511 ∧ 511 ≤ 511 := by decide

theorem witness_UnpackWritesCorrectedPlanes :
    stBit parsed 3 = true ∧ mode parsed ≠ 3
      ∧ unpackFits parsed (imgW parsed) (imgH parsed) parsed.regs.stride.toNat := by
  unfold unpackFits planesApart overlap; decide +kernel

/-- The last scanline byte, and the last plane byte, exactly at their bounds. -/
theorem witness_UnpackWritesCorrectedPlanes_exact :
    let s := parsed.setRegs { parsed.regs with srcLen := 0x339#32, planeBase3 := 0xFFFFFF4C#32 }
    stBit s 3 = true ∧ mode s ≠ 3 ∧ unpackFits s (imgW s) (imgH s) s.regs.stride.toNat := by
  unfold unpackFits planesApart overlap; decide +kernel

/-- SEQ; BLC_CFG; a source past 2^32; one scanline byte short; one plane byte past 2^32; planes 0 and 1 sharing
one byte. -/
theorem witness_UnpackReportsTheFirstError :
    let blc := parsed.setRegs { parsed.regs with blackLevel := 1023#32 }
    let src' := parsed.setRegs { parsed.regs with srcBase := 0xFFFFFC01#32 }
    let short := parsed.setRegs { parsed.regs with srcLen := 0x338#32 }
    let past := parsed.setRegs { parsed.regs with planeBase3 := 0xFFFFFF4D#32 }
    let clash := parsed.setRegs { parsed.regs with planeBase1 := 0x10B3#32 }
    stBit frame 3 = false
      ∧ (stBit blc 3 = true ∧ bl blc = 1023)
      ∧ (0 < imgH src' ∧ stBit src' 3 = true ∧ bl src' ≠ 1023 ∧ 2 ^ 32 < src src' + len src')
      ∧ (bl short ≠ 1023 ∧ len short
          < short.regs.pixOff.toNat + (imgH short - 1) * short.regs.stride.toNat + 5 * (imgW short / 4))
      ∧ (bl past ≠ 1023 ∧ 2 ^ 32 < plane past 3 + 2 * (imgW past / 2) * (imgH past / 2))
      ∧ (0 < imgH clash ∧ stBit clash 3 = true ∧ bl clash ≠ 1023 ∧ src clash + len clash ≤ 2 ^ 32
        ∧ clash.regs.pixOff.toNat + (imgH clash - 1) * clash.regs.stride.toNat + 5 * (imgW clash / 4) ≤ len clash
        ∧ (∀ c : Fin 4, plane clash c + 2 * (imgW clash / 2) * (imgH clash / 2) ≤ 2 ^ 32)
        ∧ ¬ planesApart clash (2 * (imgW clash / 2) * (imgH clash / 2))) := by
  unfold planesApart overlap; decide +kernel

theorem witness_GainIsClippedRatio :
    0 < 100 ∧ 3199 < 32 * 100 ∧ 256 * 100 ≤ 25600 ∧ 32 * 100 ≤ 3200 ∧ 3200 < (32 + 1) * 100
      ∧ 255 * 100 ≤ 25599 ∧ 25599 < (255 + 1) * 100 := by decide

theorem witness_SampleWritesTheGainTable :
    stBit unpacked 3 = true ∧ stBit unpacked 4 = true ∧ sampleFits unpacked (chW unpacked) (chH unpacked)
      ∧ grW unpacked = (chW unpacked + 31) / 32 ∧ grH unpacked = (chH unpacked + 31) / 32 := by
  unfold sampleFits overlap; decide +kernel

/-- No HDR_VALID; no PLANES_VALID; a table one byte past 2^32; a plane past it; a table over the last plane byte; a
table in the source. -/
theorem witness_SampleReportsTheFirstError :
    let past := unpacked.setRegs { unpacked.regs with gtBase := 0xFFFFFFFD#32 }
    let plane3 := unpacked.setRegs { unpacked.regs with planeBase3 := 0xFFFFFF4D#32 }
    let clash := unpacked.setRegs { unpacked.regs with gtBase := 0x13B3#32 }
    let inSrc := unpacked.setRegs { unpacked.regs with gtBase := 0x3FF#32 }
    stBit frame 3 = false ∧ stBit parsed 4 = false
      ∧ (stBit past 3 = true ∧ stBit past 4 = true
        ∧ 2 ^ 32 < past.regs.gtBase.toNat + 4 * grW past * grH past)
      ∧ 2 ^ 32 < plane plane3 3 + 2 * chW plane3 * chH plane3
      ∧ (stBit clash 3 = true ∧ stBit clash 4 = true
        ∧ (∀ c : Fin 4, plane clash c + 2 * chW clash * chH clash ≤ 2 ^ 32)
        ∧ clash.regs.gtBase.toNat + 4 * grW clash * grH clash ≤ 2 ^ 32
        ∧ overlap clash.regs.gtBase.toNat (4 * grW clash * grH clash) (plane clash 3) (2 * chW clash * chH clash))
      ∧ ((∀ c : Fin 4, plane inSrc c + 2 * chW inSrc * chH inSrc ≤ 2 ^ 32)
        ∧ inSrc.regs.gtBase.toNat + 4 * grW inSrc * grH inSrc ≤ 2 ^ 32
        ∧ overlap inSrc.regs.gtBase.toNat (4 * grW inSrc * grH inSrc) (src inSrc) (len inSrc)) := by
  unfold overlap; decide +kernel

theorem witness_UniformPlaneGivesUnityGain :
    sampleFits unpacked (chW unpacked) (chH unpacked) ∧ grW unpacked = (chW unpacked + 31) / 32
      ∧ grH unpacked = (chH unpacked + 31) / 32
      ∧ (∀ r k, r < chH unpacked → k < chW unpacked → sampleOf unpacked (chW unpacked) 0 r k = 0)
      ∧ stBit unpacked 3 = true ∧ stBit unpacked 4 = true ∧ (∃ t, exec .sample unpacked = .next t)
      ∧ channelPlane unpacked 0 = 0 ∧ 0 < grH unpacked ∧ 0 < grW unpacked := by
  obtain ⟨h3, h4, hf, h1, h2⟩ := witness_SampleWritesTheGainTable
  have hu : ∀ r : Fin 9, ∀ k : Fin 10, sampleOf unpacked (chW unpacked) 0 r.val k.val = 0 := by decide +kernel
  have hc : sampleCheck unpacked = none := by decide +kernel
  have hg : unpacked.gridDefined = true := by decide +kernel
  have hp : samplePhase unpacked = .ok (sampleEffects unpacked) := by simp [samplePhase, hc, hg]
  refine ⟨hf, h1, h2, fun r k hr hk => hu ⟨r, lt_of_lt_of_eq hr (by decide)⟩ ⟨k, lt_of_lt_of_eq hk (by decide)⟩, h3, h4,
    ⟨completeOk (sampleEffects unpacked), by simp [exec, execSample, hp, complete]⟩, ?_, ?_, ?_⟩ <;>
    decide +kernel

theorem witness_RunPerformsTheThreePhases :
    headerReadable frame ∧ formatAgrees frame ∧ orderFound frame 0 ∧ geometryAgrees frame
      ∧ unpackFits frame (hdr16 frame 32) (hdr16 frame 34) (strideValue (hdr16 frame 32) (hdr16 frame 36))
      ∧ sampleFits frame (hdr16 frame 32 / 2) (hdr16 frame 34 / 2) := by
  obtain ⟨h1, h2, h3, h4⟩ := witness_ParseLatchesAValidHeader
  refine ⟨h1, h2, h3, h4, ?_, ?_⟩
  · unfold unpackFits planesApart overlap; decide +kernel
  · unfold sampleFits overlap; decide +kernel

/-- The three places at which RUN stops: no header, no planes, no table. -/
theorem witness_RunStopsAtTheFirstError :
    let blc := frame.setRegs { frame.regs with blackLevel := 1023#32 }
    let clash := frame.setRegs { frame.regs with gtBase := 0x1000#32 }
    (stBit State.reset 3 = false ∧ stBit State.reset 4 = false ∧ stBit State.reset 5 = false
        ∧ holds (exec .parse State.reset) (fun t => !stBit t 3) = true)
      ∧ (stBit blc 3 = false ∧ stBit blc 4 = false ∧ stBit blc 5 = false
        ∧ holds (exec .parse blc) (fun t => stBit t 3 && holds (exec .unpack t) fun u => !stBit u 4) = true)
      ∧ (stBit clash 3 = false ∧ stBit clash 4 = false ∧ stBit clash 5 = false
        ∧ holds (exec .parse clash) (fun t => stBit t 3 && holds (exec .unpack t) fun u =>
          stBit u 4 && holds (exec .sample u) fun v => !stBit v 5) = true) := by
  decide +kernel

/-- The invariant holds of a busy machine: NOP in progress after reset. -/
theorem witness_StepNeverFaults : Inv (busyWith 0#32 State.reset) := by
  refine ⟨rfl, ⟨by decide, by decide, by decide, by decide, by decide, by decide,
    BitVec.extractLsb'_append_eq_left, by decide, by decide⟩, ?_, ?_, ?_⟩
  · constructor <;> decide +kernel
  · refine ⟨fun _ => ⟨0#32, rfl, by decide, by decide⟩, ?_, ?_, ?_⟩ <;> decide +kernel
  · constructor <;> decide +kernel

theorem witness_StepKeepsTheInvariant :
    Inv (busyWith 0#32 State.reset) ∧ ∃ t, step (busyWith 0#32 State.reset) = .next t :=
  ⟨witness_StepNeverFaults, _, rfl⟩

theorem witness_CompletionEndsTheCommand :
    Inv (busyWith 0#32 State.reset) ∧ stBit (busyWith 0#32 State.reset) 0 = true
      ∧ (busyWith 0#32 State.reset).schedule = [] :=
  ⟨witness_StepNeverFaults, by decide, rfl⟩

theorem witness_NoCommandHangs :
    Inv (busyWith 0#32 State.reset) ∧ stBit (busyWith 0#32 State.reset) 0 = true :=
  ⟨witness_StepNeverFaults, by decide⟩

theorem witness_MemoryOutsideTheFootprintIsKept :
    holds (exec .unpack parsed) (fun _ => true) = true
      ∧ (storesTo .unpack parsed).all (fun g => !regionHas g 0x10B4) = true
      ∧ (storesTo .unpack parsed).length = 4 := by decide +kernel

theorem witness_runReachesSample : runReachesSample frame := by
  obtain ⟨h1, h2, h3, h4⟩ := witness_ParseLatchesAValidHeader
  exact ⟨h1, h2, ⟨0, h3⟩, h4, witness_RunPerformsTheThreePhases.2.2.2.2.1⟩

/-- A frame whose gain table would lie over plane 0: RUN's PARSE and UNPACK succeed, its SAMPLE does not. -/
theorem witness_runReachesSample_clash :
    let clash := frame.setRegs { frame.regs with gtBase := 0x1000#32 }
    runReachesSample clash ∧ ¬ sampleFits clash (hdr16 clash 32 / 2) (hdr16 clash 34 / 2) := by
  have h : orderFound (frame.setRegs { frame.regs with gtBase := 0x1000#32 }) 0 := by
    unfold orderFound; decide +kernel
  refine ⟨⟨?_, ?_, ⟨0, h⟩, ?_, ?_⟩, ?_⟩
  · unfold headerReadable tagPresent; decide +kernel
  · unfold formatAgrees; decide +kernel
  · unfold geometryAgrees; decide +kernel
  · unfold unpackFits planesApart overlap; decide +kernel
  · unfold sampleFits overlap; decide +kernel

/-- The clauses where the checks pass are met by the states of the UNPACK, SAMPLE and RUN witnesses above; here the
errors (SEQ, and a RUN without header), an instruction without footprint, and a machine busy and idle. -/
theorem witness_FootprintsAreTheRegionsOfTheTable :
    (Region.mk 0x1000 180 ∈ writeFootprint .unpack parsed ∧ Region.mk 0x2000 4 ∈ writeFootprint .sample unpacked
      ∧ Region.mk 0x1300 180 ∈ writeFootprint .run frame ∧ Region.mk 0x2000 4 ∈ writeFootprint .run frame)
    ∧ (stBit State.reset 2 = false ∧ holds (exec .unpack State.reset) (fun t => stBit t 2) = true
      ∧ holds (exec .sample State.reset) (fun t => stBit t 2) = true)
    ∧ (stBit State.reset 4 = false ∧ holds (exec .run State.reset) (fun t => !stBit t 4) = true)
    ∧ (stBit (busyWith 2#32 parsed) 0 = true ∧ (busyWith 2#32 parsed).pending = some 2#32
      ∧ stBit State.reset 0 = false) := by
  decide +kernel

/-- The same states, for what is read: the tag, the header record, the last scanline and the last plane. -/
theorem witness_ReadFootprintsAreTheRegionsOfTheTable :
    Region.mk 0 4 ∈ readFootprint .parse frame ∧ Region.mk 0xB0 70 ∈ readFootprint .parse frame
      ∧ scanline parsed 32 20 17 ∈ readFootprint .unpack parsed ∧ imgH parsed = 18
      ∧ Region.mk 0x1300 180 ∈ readFootprint .sample unpacked
      ∧ scanline frame 32 20 17 ∈ readFootprint .run frame ∧ Region.mk 0x1300 180 ∈ readFootprint .run frame := by
  decide +kernel

theorem witness_ErroringPhaseWritesNoMemory :
    stBit State.reset 1 = false ∧ holds (exec .parse State.reset) (fun t => !stBit t 1) = true
      ∧ holds (exec .unpack State.reset) (fun t => !stBit t 1) = true
      ∧ holds (exec .sample State.reset) (fun t => !stBit t 1) = true := by decide +kernel

theorem witness_CommandsKeepConfiguration :
    isPhaseCommand .unpack ∧ holds (exec .unpack (latchedFrame 0xC8#32)) (fun _ => true) = true
      ∧ stBit (latchedFrame 0xC8#32) 6 = true ∧ stBit (latchedFrame 0xC8#32) 7 = true :=
  ⟨trivial, by decide +kernel, by decide, by decide⟩

theorem witness_HostStateIsNotTheBlocks : holds (exec .nop State.reset) (fun _ => true) = true := by decide

theorem witness_StoredByteIsLoaded :
    let s := { State.reset with script := [.store 0xFFFFFFFF#32 1#8, .load 0xFFFFFFFF#32] }
    s.schedule = [] ∧ stBit s 0 = false ∧ s.script[s.line]? = some (.store 0xFFFFFFFF#32 1#8)
      ∧ s.script[s.line + 1]? = some (.load 0xFFFFFFFF#32) := by decide

/-- While UNPACK runs: a load of the first byte past plane 0, a store of the byte past the source, a store of the last
byte of plane 0, and a store of the last scanline byte. -/
theorem witness_HostAccessWhileBusy :
    let s := busyWith 2#32 parsed
    inRegions s.runningWrites 0x10B4#32 = false
      ∧ inRegions (s.runningReads ++ s.runningWrites) 0x339#32 = false
      ∧ inRegions (s.runningReads ++ s.runningWrites) 0x10B3#32 = true
      ∧ inRegions (s.runningReads ++ s.runningWrites) 0x338#32 = true
      ∧ (hostAt (.load 0x10B4#32) s).schedule = [.host]
      ∧ (hostAt (.load 0x10B4#32) s).script[0]? = some (.load 0x10B4#32) := by decide +kernel

/-- While UNPACK runs, a load of the last byte of plane 0. -/
theorem witness_HostLoadInsideAFootprintGoesOn :
    let s := hostAt (.load 0x10B3#32) (busyWith 2#32 parsed)
    s.schedule = [.host] ∧ s.script[s.line]? = some (.load 0x10B3#32)
      ∧ ∃ g ∈ s.runningWrites, ¬ outside g.base g.len (0x10B3#32).toNat := by
  refine ⟨rfl, by decide +kernel, ⟨0x1000, 180⟩, by decide +kernel, ?_⟩
  unfold outside; decide

end Sys2Proof.Tests
end

section
/-! The decoding of one RAW10 group (R122, R170). -/

namespace Sys2Proof.Machine

/-- The topmost bit pair of a byte is all that lies above bit 5. -/
theorem byte_div_64_mod_4 (b : Byte) : b.toNat / 64 % 4 = b.toNat / 64 :=
  Nat.mod_eq_of_lt (by have := b.isLt; omega)

/-- Settles O31: each pixel is `rawSample` at its place in the group. Pixel 0's pair is the top of the fifth byte, so
nothing is cut off above it; pixel 3's is the bottom, so nothing is shifted out below it. -/
theorem groupBitsAreMsbFirst : Obligations.GroupBitsAreMsbFirst := by
  intro b0 b1 b2 b3 b4
  refine ⟨?pixel0, rawSample_toNat b1 b4 1, rawSample_toNat b2 b4 2, ?pixel3⟩
  case pixel0 =>
    calc (rawSample b0 b4 0).toNat
        = 4 * b0.toNat + b4.toNat / 64 % 4 := rawSample_toNat b0 b4 0
      _ = 4 * b0.toNat + b4.toNat / 64 := by rw [byte_div_64_mod_4]
  case pixel3 =>
    calc (rawSample b3 b4 3).toNat
        = 4 * b3.toNat + b4.toNat / 1 % 4 := rawSample_toNat b3 b4 3
      _ = 4 * b3.toNat + b4.toNat % 4 := by rw [Nat.div_one]

end Sys2Proof.Machine
end

section
/-! The stride of a packed line (R147). -/

namespace Sys2Proof.Machine

/-- A count of quarter bytes fits in `m` whole bytes exactly when its rounded-up quotient does. -/
theorem quarters_le_iff (n m : Nat) : (n + 3) / 4 ≤ m ↔ n ≤ 4 * m := by omega

/-- Rounding up to a multiple of 32 does not pass a multiple of 32 that was not passed before. -/
theorem roundUp32_le_iff (n m : Nat) (hm : m % 32 = 0) : (n + 31) / 32 * 32 ≤ m ↔ n ≤ m := by omega

/-- The multiples of 32 that hold the packed line are those from the stride upward (R147). -/
theorem strideOf_le_iff (w pr m : Nat) (hm : m % 32 = 0) : strideOf w pr ≤ m ↔ (w + pr) * 5 ≤ 4 * m := by
  rw [strideOf_eq, roundUp32_le_iff _ _ hm, quarters_le_iff]

theorem strideOf_mod_32 (w pr : Nat) : strideOf w pr % 32 = 0 := by
  rw [strideOf_eq]; exact Nat.mul_mod_left _ _

/-- Settles O30: the stride is itself such a multiple, and by `strideOf_le_iff` the least. -/
theorem strideIsLeastMultiple : Obligations.StrideIsLeastMultiple := by
  intro w pr
  refine ⟨strideOf_mod_32 w pr, ?holds, ?least⟩
  case holds => exact (strideOf_le_iff w pr _ (strideOf_mod_32 w pr)).1 le_rfl
  case least => exact fun m hm hfit => (strideOf_le_iff w pr m hm).2 hfit

end Sys2Proof.Machine
end

section
/-! Reading a register by name after STATUS, ERRCODE or the header latch were written, and completions with an error
in the terms of the statements (R145, R264). -/

namespace Sys2Proof.Machine

open Sys2Proof.Claims

theorem Regs.get_setStatus (r : Regs) (v : Word) (x : Reg) (hx : x ≠ .status) :
    (r.setStatus v).get x = r.get x := by
  cases x with
  | status => exact absurd rfl hx
  | _ => rfl

theorem Regs.get_setErrcode (r : Regs) (v : Word) (x : Reg) (hx : x ≠ .errcode) :
    (r.setErrcode v).get x = r.get x := by
  cases x with
  | errcode => exact absurd rfl hx
  | _ => rfl

/-- The latch writes no register but those of R145 and R146. -/
theorem State.latchedRegs_get (s : State) (x : Reg) (hx : ¬ parseMayWrite x) :
    s.latchedRegs.get x = s.regs.get x := by
  cases x with
  | hdrName i => exact absurd (.inl ⟨i, rfl⟩) hx
  | hdrDim | hdrPad | hdrFmt | hdrBayer | stride | chDim | gridDim | bayerOrder =>
    exact absurd (.inr (by decide)) hx
  | _ => rfl

/-- A completion with an error keeps every register but STATUS and ERRCODE. -/
theorem completeError_get (issued phase : BitVec 4) (code : ErrCode) (s : State) (x : Reg) (hst : x ≠ .status)
    (herr : x ≠ .errcode) : (completeError issued phase code s).regs.get x = s.regs.get x := by
  rw [completeError_eq, State.setRegs_regs, Regs.get_setErrcode _ _ _ herr, Regs.get_setStatus _ _ _ hst]

/-- An error completion in the terms of R264. -/
theorem endsInError_completeError (s : State) (issued phase : BitVec 4) (code : ErrCode) :
    endsInError s (completeError issued phase code s) issued phase (errNumber code) :=
  ⟨completeError_eq issued phase code s, completeError_bit issued phase code s,
    completeError_errcode issued phase code s⟩

end Sys2Proof.Machine
end

section
/-! PARSE before the latch: source range, magic, header range (R140, R143, R151). -/

namespace Sys2Proof.Machine

open Sys2Proof.Claims

theorem exec_parse (s : State) : exec .parse s = complete 1#4 1#4 (parsePhase s) := rfl

/-- The comparison of the four bytes at SRC_BASE with the magic tag (R140). -/
theorem magicPresent_iff (s : State) : s.magicPresent = true ↔ tagPresent s := by
  simp [State.magicPresent, tagPresent, byteAt, src, Config.magic, List.range_succ, BitVec.toNat_eq]

/-- The checks before the latch on the numbers of the source region and the header offset (R151, 1 to 3). -/
theorem parsePrecheck_eq (s : State) :
    parsePrecheck s =
      if 2 ^ 32 < src s + len s then some .bounds
      else if len s < 4 then some .magic
      else if s.magicPresent = false then some .magic
      else if len s < s.regs.hdrOff.toNat + 70 then some .bounds
      else none := by
  have hrange : ¬ regionInRange s.sourceRegion = true ↔ 2 ^ 32 < src s + len s := by
    rw [regionInRange_iff]; exact not_le
  exact if_congr hrange rfl (if_congr Iff.rfl rfl (if_congr (Bool.not_eq_true _).to_iff rfl rfl))

/-- PARSE goes on to the latch exactly when the header is readable. -/
theorem parsePrecheck_none_iff (s : State) : parsePrecheck s = none ↔ headerReadable s := by
  rw [parsePrecheck_eq, headerReadable, ← magicPresent_iff]
  split_ifs with hrange hlen htag hhdr
  · simp only [false_iff]; omega
  · simp only [false_iff]; omega
  · simp [htag]
  · simp only [false_iff]; omega
  · simp only [Bool.not_eq_false] at htag
    exact iff_of_true rfl ⟨by omega, by omega, htag, by omega⟩

/-- An error before the latch completes PARSE with nothing changed but STATUS and ERRCODE (R145). -/
theorem exec_parse_of_precheck (s : State) (code : ErrCode) (h : parsePrecheck s = some code) :
    ∃ t, exec .parse s = .next t ∧ endsInError s t 1#4 1#4 (errNumber code) := by
  refine ⟨completeError 1#4 1#4 code s, ?_, endsInError_completeError s _ _ _⟩
  simp [exec_parse, parsePhase, h, complete]

/-- The error number of each place at which PARSE stops before the latch (R151, 1 to 3). -/
theorem parsePrecheck_errNumber (s : State) (code : ErrCode) (h : parsePrecheck s = some code) :
    errNumber code =
      if 2 ^ 32 < src s + len s then 5#8
      else if len s < 4 then 1#8
      else if s.magicPresent = false then 1#8
      else 5#8 := by
  rw [parsePrecheck_eq] at h
  split_ifs at h ⊢ <;> cases h <;> rfl

/-- The tag is absent when one of its four bytes differs. -/
theorem magicPresent_eq_false_iff (s : State) :
    s.magicPresent = false ↔
      (s.mem.read (src s)).toNat ≠ 0x42 ∨ (s.mem.read (src s + 1)).toNat ≠ 0x52
        ∨ (s.mem.read (src s + 2)).toNat ≠ 0x43 ∨ (s.mem.read (src s + 3)).toNat ≠ 0x4D := by
  rw [← Bool.not_eq_true, magicPresent_iff]
  simp only [tagPresent, byteAt, not_and_or, ne_eq]

/-- Settles O28: an unreadable header is an error of the checks before the latch, whose number is that of the first
check that fails. -/
theorem parseFailsBeforeTheLatch : Obligations.ParseFailsBeforeTheLatch := by
  intro s hunread
  obtain ⟨code, hcode⟩ := Option.ne_none_iff_exists'.1 fun hnone => hunread ((parsePrecheck_none_iff s).1 hnone)
  have hnumber := parsePrecheck_errNumber s code hcode
  simp only [magicPresent_eq_false_iff] at hnumber
  rw [← hnumber]
  exact exec_parse_of_precheck s code hcode

end Sys2Proof.Machine
end

section
/-! PARSE after the latch: what is latched, and the checks of format, order and geometry on it (R144 to R150). -/

namespace Sys2Proof.Machine

open Sys2Proof.Claims

/-! ## What the latch holds -/

theorem headerHalf_eq_hdr16 (s : State) (n : Nat) : (s.headerHalf n).toNat = hdr16 s n := headerHalf_toNat s n

theorem hdr16_lt (s : State) (n : Nat) : hdr16 s n < 65536 := headerHalf_eq_hdr16 s n ▸ (s.headerHalf n).isLt

/-- A register of two header fields, as a number. -/
theorem headerHalf_append_toNat (s : State) (m n : Nat) :
    (s.headerHalf m ++ s.headerHalf n).toNat = hdr16 s n + 65536 * hdr16 s m := by
  rw [append_toNat, headerHalf_eq_hdr16, headerHalf_eq_hdr16]; omega

/-- STRIDE does not overflow its 32 bits (R147). -/
theorem latchedRegs_stride_toNat (s : State) :
    s.latchedRegs.stride.toNat = strideValue (hdr16 s 32) (hdr16 s 36) := by
  have hw := hdr16_lt s 32
  have hpr := hdr16_lt s 36
  rw [State.latchedRegs_stride, headerHalf_eq_hdr16, headerHalf_eq_hdr16, strideOf_eq, BitVec.toNat_ofNat]
  exact Nat.mod_eq_of_lt (by omega)

theorem latchedRegs_chDim_toNat (s : State) :
    s.latchedRegs.chDim.toNat = hdr16 s 32 / 2 + 65536 * (hdr16 s 34 / 2) := by
  have hw := hdr16_lt s 32
  have hh := hdr16_lt s 34
  rw [State.latchedRegs_chDim, headerHalf_eq_hdr16, headerHalf_eq_hdr16, pairWord_toNat _ _ (by omega) (by omega)]

theorem latchedRegs_gridDim_toNat (s : State) :
    s.latchedRegs.gridDim.toNat = (hdr16 s 32 / 2 + 31) / 32 + 65536 * ((hdr16 s 34 / 2 + 31) / 32) := by
  have hw := hdr16_lt s 32
  have hh := hdr16_lt s 34
  rw [State.latchedRegs_gridDim, headerHalf_eq_hdr16, headerHalf_eq_hdr16, gridOf_eq, gridOf_eq,
    pairWord_toNat _ _ (by omega) (by omega)]

theorem latchedRegs_hdrBayer_toNat (s : State) :
    s.latchedRegs.hdrBayer.toNat = (hdr s 68).toNat + 256 * (hdr s 69).toNat := by
  rw [State.latchedRegs_hdrBayer, append_toNat, append_toNat]
  simp [State.headerByte, hdr]; omega

/-- The lookup of R150 answers the index that the statements call found. -/
theorem orderLookup_of_found (s : State) (k : Nat) (h : orderFound s k) :
    orderLookup s.regs.orderCodes (s.headerByte 68) = some (BitVec.ofNat 2 k) := by
  obtain ⟨hk, hhit, hleast⟩ := h
  refine (orderLookup_some _ _ ⟨k, hk⟩ hhit fun j hj => hleast j hj).trans (congrArg some ?_)
  exact BitVec.eq_of_toNat_eq (by simp; omega)

/-- Where no index is found no code matches: of matching ones, the least would be found. -/
theorem orderByte_ne_of_not_found (s : State) (h : ∀ k, ¬ orderFound s k) (j : Nat) (hj : j < 4) :
    orderByte s j ≠ hdr s 68 := by
  induction j using Nat.strong_induction_on with
  | _ j ih => exact fun hhit => h j ⟨hj, hhit, fun i hi => ih i hi (hi.trans hj)⟩

theorem orderLookup_of_not_found (s : State) (h : ∀ k, ¬ orderFound s k) :
    orderLookup s.regs.orderCodes (s.headerByte 68) = none :=
  orderLookup_none _ _ fun j => orderByte_ne_of_not_found s h j j.isLt

theorem bayerOrderWord_some_toNat (k : BitVec 2) : (bayerOrderWord (some k)).toNat = 2 ^ 31 + k.toNat := by
  revert k; decide

/-- MATCH, bit 31 of BAYER_ORDER, says whether the lookup found an index (R45). -/
theorem bayerOrderWord_match (o : Option (BitVec 2)) : (bayerOrderWord o).getLsbD 31 = o.isSome := by
  cases o with
  | none => rfl
  | some k => revert k; decide

theorem latchedRegs_hdrName (s : State) (i : Fin 8) : s.latchedRegs.hdrName i = s.headerName i := by
  fin_cases i <;> rfl

/-- The latch holds the header's fields and what is derived from them (R145, R146). -/
theorem latchedFrom_latchHeader (s : State) : latchedFrom s s.latchHeader := by
  refine ⟨latchedRegs_hdrName s, headerHalf_append_toNat s 34 32, headerHalf_append_toNat s 38 36,
    headerHalf_append_toNat s 66 64, latchedRegs_hdrBayer_toNat s, latchedRegs_stride_toNat s,
    latchedRegs_chDim_toNat s, latchedRegs_gridDim_toNat s, fun k hk => ?found, fun hnone => ?notFound⟩
  case found =>
    have hlt : k < 4 := hk.1
    rw [State.latchHeader_regs, State.latchedRegs_bayerOrder, orderLookup_of_found s k hk,
      bayerOrderWord_some_toNat, BitVec.toNat_ofNat, Nat.mod_eq_of_lt hlt]
  case notFound =>
    rw [State.latchHeader_regs, State.latchedRegs_bayerOrder, orderLookup_of_not_found s hnone, bayerOrderWord]

/-- A completion with an error keeps what is latched. -/
theorem latchedFrom_completeError (s t : State) (issued phase : BitVec 4) (code : ErrCode) :
    latchedFrom s (completeError issued phase code t) ↔ latchedFrom s t := Iff.rfl

/-! ## The checks on the latched header -/

/-- The comparisons of R144 read the latched registers; the statements read the header record. -/
theorem formatMatches_latchHeader_iff (s : State) : s.latchHeader.formatMatches = true ↔ formatAgrees s := by
  have hfmt : s.latchedRegs.hdrFmt.extractLsb' 16 16 = s.headerHalf 66 := BitVec.extractLsb'_append_eq_left
  have hpack : s.latchedRegs.hdrBayer.extractLsb' 8 8 = s.headerByte 69 :=
    (BitVec.extractLsb'_append_eq_of_le (by decide)).trans BitVec.extractLsb'_append_eq_right
  simp only [State.formatMatches, State.latchHeader_regs, hfmt, hpack, State.latchedRegs_fmtCodes,
    Bool.and_eq_true, beq_iff_eq, formatAgrees, ← headerHalf_eq_hdr16, BitVec.toNat_inj]
  exact Iff.rfl

/-- BAYER_ORDER.MATCH is set by the latch where the order code is found (R150). -/
theorem orderMatched_latchHeader_iff (s : State) : s.latchHeader.orderMatched = true ↔ ∃ k, orderFound s k := by
  rw [State.orderMatched, State.latchHeader_regs, State.latchedRegs_bayerOrder, bayerOrderWord_match]
  by_cases hfound : ∃ k, orderFound s k
  · obtain ⟨k, hk⟩ := hfound
    rw [orderLookup_of_found s k hk]
    exact iff_of_true rfl ⟨k, hk⟩
  · rw [orderLookup_of_not_found s (not_exists.1 hfound)]
    exact iff_of_false Bool.false_ne_true hfound

/-- The limits of R149 read the latched dimensions; the statements read the header record. -/
theorem geometryLegal_latchHeader_iff (s : State) : s.latchHeader.geometryLegal = true ↔ geometryAgrees s := by
  have hw : s.latchHeader.width = hdr16 s 32 :=
    (lowHalf_append (s.headerHalf 34) (s.headerHalf 32)).trans (headerHalf_eq_hdr16 s 32)
  have hh : s.latchHeader.height = hdr16 s 34 :=
    (highHalf_append (s.headerHalf 34) (s.headerHalf 32)).trans (headerHalf_eq_hdr16 s 34)
  simp only [State.geometryLegal, hw, hh, Bool.and_eq_true, decide_eq_true_eq, and_assoc, geometryAgrees]

/-- A header that fails a statement's comparison fails a check after the latch. -/
theorem parsePostcheck_latchHeader_ne_none (s : State)
    (hfail : ¬ (formatAgrees s ∧ (∃ k, orderFound s k) ∧ geometryAgrees s)) :
    parsePostcheck s.latchHeader ≠ none := fun hnone => by
  obtain ⟨hfmt, hord, hgeom⟩ := parsePostcheck_none _ hnone
  exact hfail ⟨(formatMatches_latchHeader_iff s).1 hfmt, (orderMatched_latchHeader_iff s).1 hord,
    (geometryLegal_latchHeader_iff s).1 hgeom⟩

/-- Which error each failing check after the latch is (R151, 4 to 6). -/
theorem parsePostcheck_latchHeader_code (s : State) (code : ErrCode)
    (h : parsePostcheck s.latchHeader = some code) :
    (¬ formatAgrees s → code = .format)
      ∧ (formatAgrees s → (∀ k, ¬ orderFound s k) → code = .order)
      ∧ (formatAgrees s → (∃ k, orderFound s k) → code = .geom) := by
  rw [← not_exists, ← formatMatches_latchHeader_iff, ← orderMatched_latchHeader_iff]
  unfold parsePostcheck at h
  refine ⟨fun hf => ?format, fun hf hk => ?order, fun hf hk => ?geom⟩
  case format =>
    rw [if_pos hf] at h
    exact (Option.some.inj h).symm
  case order =>
    rw [if_neg (not_not.2 hf), if_pos hk] at h
    exact (Option.some.inj h).symm
  case geom =>
    rw [if_neg (not_not.2 hf), if_neg (not_not.2 hk), Option.ite_none_right_eq_some] at h
    exact (Option.some.inj h.2).symm

/-- An error after the latch completes PARSE with the header latched (R145). -/
theorem exec_parse_of_postcheck (s : State) (code : ErrCode) (hread : headerReadable s)
    (h : parsePostcheck s.latchHeader = some code) :
    exec .parse s = .next (completeError 1#4 1#4 code s.latchHeader) := by
  simp [exec_parse, parsePhase, (parsePrecheck_none_iff s).2 hread, h, complete]

/-- Settles O29: an error of the checks after the latch completes the latched machine, so that the completion's own
frame and the latch's give every clause but the code, which is that of the first check that fails. -/
theorem parseFailsAfterTheLatch : Obligations.ParseFailsAfterTheLatch := by
  intro s hread hfail
  obtain ⟨code, hcode⟩ := Option.ne_none_iff_exists'.1 (parsePostcheck_latchHeader_ne_none s hfail)
  obtain ⟨hformat, horder, hgeom⟩ := parsePostcheck_latchHeader_code s code hcode
  refine ⟨_, exec_parse_of_postcheck s code hread hcode,
    (latchedFrom_completeError _ _ _ _ _).2 (latchedFrom_latchHeader s), rfl, completeError_bit _ _ _ _,
    fun x hst herr hx => ?frame, fun hf => ?format, fun hf hk => ?order, fun hf hk => ?geom⟩
  case frame => exact (completeError_get _ _ _ _ x hst herr).trans (s.latchedRegs_get x hx)
  case format => rw [completeError_errcode, hformat hf]; rfl
  case order => rw [completeError_errcode, horder hf hk]; rfl
  case geom => rw [completeError_errcode, hgeom hf hk]; rfl

end Sys2Proof.Machine
end

section
/-! The corrected sample below the black level (R174 to R176). -/

namespace Sys2Proof.Machine

open Sys2Proof.Claims

theorem corr_clamp_of_lt (r b : Nat) (h : r < b) : corr r b .clamp = 0#16 := by
  rw [corr, if_neg (not_le.2 h)]

/-- Mode 1 wraps the difference at 32 bits, then the product, then divides (R175). -/
theorem wrapUnderflow_eq (r b : Nat) (h : r < b) (hb : b ≤ 1022) :
    wrapUnderflow r b = (2 ^ 32 - (b - r)) * 1023 % 2 ^ 32 / (1023 - b) % 2 ^ 16 := by
  have hdiff : (r : Int) - b = -((b - r : Nat) : Int) := by omega
  have hwrapped : truncInt 32 ((r : Int) - b) = 2 ^ 32 - (b - r) := by
    rw [hdiff, truncInt_neg 32 (b - r) (by omega) (by omega)]
  have hscale : b ≤ Config.maxValue := hb.trans (by decide)
  rw [wrapUnderflow, hwrapped, ← Nat.cast_mul, truncInt_ofNat, ← Nat.cast_sub hscale, ← Int.natCast_div,
    truncInt_ofNat]

/-- Mode 2 negates the quotient in 16 bits (R176). -/
theorem signedUnderflow_eq (r b : Nat) :
    signedUnderflow r b = (2 ^ 16 - (b - r) * 1023 / (1023 - b) % 2 ^ 16) % 2 ^ 16 := by
  unfold signedUnderflow truncInt
  generalize (b - r) * 1023 / (1023 - b) = q
  omega

theorem corr_wrap_toNat (r b : Nat) (h : r < b) (hb : b ≤ 1022) :
    (corr r b .wrap).toNat = (2 ^ 32 - (b - r)) * 1023 % 2 ^ 32 / (1023 - b) % 2 ^ 16 := by
  rw [corr, if_neg (not_le.2 h), BitVec.toNat_ofNat, wrapUnderflow_eq r b h hb, Nat.mod_mod]

theorem corr_signed_toNat (r b : Nat) (h : r < b) :
    (corr r b .signed).toNat = (2 ^ 16 - (b - r) * 1023 / (1023 - b) % 2 ^ 16) % 2 ^ 16 := by
  rw [corr, if_neg (not_le.2 h), BitVec.toNat_ofNat, signedUnderflow_eq, Nat.mod_mod]

/-- A black level of at most half scale takes at most 1021 from a pixel below it. -/
theorem underflow_quotient_le (r b : Nat) (hb : b ≤ 511) : (b - r) * 1023 / (1023 - b) ≤ 1021 := by
  refine Nat.lt_succ_iff.1 (Nat.div_lt_of_lt_mul ?_)
  omega

/-- Below the black level the quotient is not 0, so that mode 2 gives no 0 there. -/
theorem underflow_quotient_pos (r b : Nat) (h : r < b) (hb : b ≤ 1022) :
    0 < (b - r) * 1023 / (1023 - b) :=
  Nat.div_pos (by omega) (by omega)

/-- Settles O33: the three modes below the black level; the range of mode 2 is that of its quotient. -/
theorem underflowFollowsItsMode : Obligations.UnderflowFollowsItsMode := by
  intro r b h hb
  refine ⟨corr_clamp_of_lt r b h, corr_wrap_toNat r b h hb, ?negated, fun hhalf => ?range⟩
  case negated =>
    rw [corr_signed_toNat r b h]
    omega
  case range =>
    have hle := underflow_quotient_le r b hhalf
    have hpos := underflow_quotient_pos r b h hb
    rw [corr_signed_toNat r b h]
    omega

end Sys2Proof.Machine
end

section
/-! UNPACK's checks, in the terms of the statements (R179 to R183, R262). -/

namespace Sys2Proof.Machine

open Sys2Proof.Claims

theorem exec_unpack (s : State) : exec .unpack s = complete 2#4 2#4 (unpackPhase s) := rfl

theorem width_eq_imgW (s : State) : s.width = imgW s := lowHalf_eq s.regs.hdrDim

theorem height_eq_imgH (s : State) : s.height = imgH s := highHalf_eq s.regs.hdrDim

/-- R8 takes the end of the last scanline in unbounded arithmetic; with a scanline at all it is a natural number. -/
theorem scanlines_past_iff (off h st n l : Nat) (hh : 0 < h) :
    (l : Int) < (off : Int) + ((h : Int) - 1) * st + (5 * (n / 4 : Nat) : Int)
      ↔ l < off + (h - 1) * st + 5 * (n / 4) := by
  obtain ⟨m, rfl⟩ : ∃ m, h = m + 1 := ⟨h - 1, by omega⟩
  rw [Nat.add_sub_cancel, Nat.cast_add, Nat.cast_one, add_sub_cancel_right]
  exact_mod_cast Iff.rfl

theorem overlap_comm (a n b m : Nat) : overlap a n b m ↔ overlap b m a n := by
  unfold overlap; omega

/-- No two regions of a list overlap when each is apart from all after it. -/
theorem someOverlap_eq_false_iff (gs : List Region) :
    someOverlap gs = false ↔ gs.Pairwise fun g h => ¬ overlap g.base g.len h.base h.len := by
  induction gs with
  | nil => simp [someOverlap]
  | cons g gs ih =>
    have hhead : gs.any (regionsOverlap g) = false ↔ ∀ h ∈ gs, ¬ overlap g.base g.len h.base h.len := by
      simp only [List.any_eq_false, regionsOverlap_iff, overlap]
    rw [someOverlap, Bool.or_eq_false_iff, hhead, ih, List.pairwise_cons]

/-- OVERLAP compares the planes in order, each with those after it and with the source; the order does not matter
(R183). -/
theorem someOverlap_planes_iff (s : State) (cw ch : Nat) :
    someOverlap (s.planeRegions cw ch ++ [s.sourceRegion]) = true ↔ ¬ planesApart s (2 * cw * ch) := by
  have hplanes : s.planeRegions cw ch = List.ofFn (s.planeRegion cw ch) := rfl
  rw [← Bool.not_eq_false, someOverlap_eq_false_iff, not_iff_not, List.pairwise_append, hplanes, List.pairwise_ofFn]
  simp only [List.pairwise_singleton, List.mem_ofFn, List.mem_singleton, true_and]
  constructor
  · rintro ⟨hordered, hsource⟩
    refine ⟨fun c d hcd => ?_, fun c => hsource _ ⟨c, rfl⟩ _ rfl⟩
    rcases lt_or_gt_of_ne hcd with hlt | hgt
    · exact hordered hlt
    · exact mt (overlap_comm _ _ _ _).1 (hordered hgt)
  · rintro ⟨hpairs, hsource⟩
    refine ⟨fun c d hcd => hpairs c d hcd.ne, ?_⟩
    rintro _ ⟨c, rfl⟩ _ rfl
    exact hsource c

/-- Some plane ends past the address space (R182). -/
theorem planes_past_iff (s : State) (cw ch : Nat) :
    ¬ (s.planeRegions cw ch).all regionInRange = true ↔ ∃ c : Fin 4, 2 ^ 32 < plane s c + 2 * cw * ch := by
  rw [List.all_eq_true]
  push Not
  constructor
  · rintro ⟨g, hg, hpast⟩
    obtain ⟨c, rfl⟩ := (mem_planeRegions s cw ch g).1 hg
    exact ⟨c, not_le.1 (mt (regionInRange_iff (s.planeRegion cw ch c)).2 hpast)⟩
  · rintro ⟨c, hpast⟩
    exact ⟨_, (mem_planeRegions s cw ch _).2 ⟨c, rfl⟩, mt (regionInRange_iff _).1 (not_le.2 hpast)⟩

/-- UNPACK's checks on the numbers of the statements, in the order of R262. -/
theorem unpackCheck_eq (s : State) (hh : 0 < imgH s) :
    unpackCheck s =
      if stBit s 3 = false then some .seq
      else if bl s = 1023 then some .blcCfg
      else if 2 ^ 32 < src s + len s then some .bounds
      else if len s < s.regs.pixOff.toNat + (imgH s - 1) * s.regs.stride.toNat + 5 * (imgW s / 4) then some .bounds
      else if ∃ c : Fin 4, 2 ^ 32 < plane s c + 2 * (imgW s / 2) * (imgH s / 2) then some .bounds
      else if someOverlap (s.planeRegions (imgW s / 2) (imgH s / 2) ++ [s.sourceRegion]) = true then some .overlap
      else none := by
  have hsource : ¬ regionInRange s.sourceRegion = true ↔ 2 ^ 32 < src s + len s := by
    rw [regionInRange_iff]; exact not_le
  unfold unpackCheck
  rw [width_eq_imgW, height_eq_imgH]
  exact if_congr (Bool.not_eq_true _).to_iff rfl (if_congr Iff.rfl rfl (if_congr hsource rfl
    (if_congr (scanlines_past_iff _ _ _ _ _ hh) rfl (if_congr (planes_past_iff s _ _) rfl (if_congr Iff.rfl rfl rfl)))))

/-- A failing check completes UNPACK with nothing changed but STATUS and ERRCODE (R262). -/
theorem exec_unpack_of_check (s : State) (code : ErrCode) (h : unpackCheck s = some code) :
    ∃ t, exec .unpack s = .next t ∧ endsInError s t 2#4 2#4 (errNumber code) := by
  refine ⟨completeError 2#4 2#4 code s, ?_, endsInError_completeError s _ _ _⟩
  rw [exec_unpack, unpackPhase, h, complete]

/-- SEQ and BLC_CFG are checked before any number of the frame is used (R179, R180). -/
theorem unpackCheck_seq (s : State) (h : stBit s 3 = false) : unpackCheck s = some .seq :=
  if_pos ((Bool.not_eq_true _).to_iff.2 h)

theorem unpackCheck_blcCfg (s : State) (h : stBit s 3 = true) (hb : bl s = 1023) : unpackCheck s = some .blcCfg :=
  (if_neg (not_not.2 h)).trans (if_pos hb)

/-- Settles O35: each clause is the branch of the checks at which its hypotheses stop. -/
theorem unpackReportsTheFirstError : Obligations.UnpackReportsTheFirstError := by
  intro s
  refine ⟨fun hhdr => ?seq, fun hhdr hb => ?blcCfg, fun hh hhdr hb hpast => ?bounds,
    fun hh hhdr hb hsource hscan hplanes hclash => ?overlap⟩
  case seq => exact exec_unpack_of_check s .seq (unpackCheck_seq s hhdr)
  case blcCfg => exact exec_unpack_of_check s .blcCfg (unpackCheck_blcCfg s hhdr hb)
  case bounds =>
    refine exec_unpack_of_check s .bounds ?_
    rw [unpackCheck_eq s hh, if_neg (ne_true_of_eq_false · hhdr), if_neg hb, ← ite_or, ← ite_or, if_pos]
    rwa [or_assoc]
  case overlap =>
    refine exec_unpack_of_check s .overlap ?_
    rw [unpackCheck_eq s hh, if_neg (ne_true_of_eq_false · hhdr), if_neg hb, if_neg (not_lt.2 hsource),
      if_neg (not_lt.2 hscan), if_neg (not_exists.2 fun c => not_lt.2 (hplanes c)),
      if_pos ((someOverlap_planes_iff s _ _).2 hclash)]

end Sys2Proof.Machine
end

section
/-! UNPACK's effects: the corrected planes, UFLOW and PLANES_VALID (R171 to R177, R184). -/

namespace Sys2Proof.Machine

open Sys2Proof.Claims

/-! ## The pixels -/

/-- raw(x, y) as the statements read it (R171). -/
theorem rawPixel_toNat (s : State) (x y : Nat) : (s.rawPixel x y).toNat = rawAt s s.regs.stride.toNat x y :=
  rawSample_toNat _ _ _

/-- In range the correction fits its 16 bits. -/
theorem corr_toNat_of_le (r b : Nat) (h : b ≤ r) (hr : r ≤ 1023) (hb : b ≤ 1022) (m : UflowMode) :
    (corr r b m).toNat = (r - b) * 1023 / (1023 - b) := by
  have hfit := blc_le r b hb hr
  rw [corr_of_le r b h, BitVec.toNat_ofNat, Nat.mod_eq_of_lt (by omega)]
  rfl

/-- The corrected sample under a value of UFLOW_MODE that a write can store (R173 to R176). -/
theorem corr_toNat_eq_corrected (r b : Nat) (hr : r ≤ 1023) (hb : b ≤ 1022) (m : BitVec 2) (hm : m ≠ 3#2) :
    (corr r b (uflowModeOf m)).toNat = corrected m.toNat r b := by
  unfold corrected
  split_ifs with hle h1 h2
  · exact corr_toNat_of_le r b hle hr hb _
  · obtain rfl : m = 1#2 := BitVec.eq_of_toNat_eq h1
    exact corr_wrap_toNat r b (not_le.1 hle) hb
  · obtain rfl : m = 2#2 := BitVec.eq_of_toNat_eq h2
    exact corr_signed_toNat r b (not_le.1 hle)
  · obtain rfl : m = 0#2 := by revert m; decide
    exact congrArg BitVec.toNat (corr_clamp_of_lt r b (not_le.1 hle))

/-- Some pixel of the frame lies below the black level (R177). -/
theorem underflows_iff (s : State) :
    s.underflows = true ↔ ∃ x y, x < imgW s ∧ y < imgH s ∧ rawAt s s.regs.stride.toNat x y < bl s := by
  simp only [State.underflows, List.any_eq_true, List.mem_range, decide_eq_true_eq, width_eq_imgW, height_eq_imgH,
    rawPixel_toNat]
  constructor
  · rintro ⟨y, hy, x, hx, hlt⟩
    exact ⟨x, y, hx, hy, hlt⟩
  · rintro ⟨x, y, hx, hy, hlt⟩
    exact ⟨y, hy, x, hx, hlt⟩

/-! ## The planes in memory -/

/-- A sample's two bytes lie inside its plane (R123). -/
theorem sample_offset_lt (cw ch r k : Nat) (hr : r < ch) (hk : k < cw) :
    2 * (r * cw + k) + 1 < 2 * cw * ch := by
  have hrow : (r + 1) * cw ≤ ch * cw := Nat.mul_le_mul_right cw hr
  rw [Nat.succ_mul] at hrow
  rw [Nat.mul_assoc, Nat.mul_comm cw ch]
  omega

/-- The two bytes that UNPACK writes of a sample: its low byte, then its high byte (R123). -/
theorem unpackedByte_of_sample (s : State) (cw : Nat) (c : Fin 4) (r k i : Nat) (hk : k < cw) (hi : i < 2) :
    s.unpackedByte cw c (2 * (r * cw + k) + i) = (s.unpackedSample c r k).extractLsb' (8 * i) 8 := by
  have hindex : (2 * (r * cw + k) + i) / 2 = r * cw + k := by omega
  have hbyte : (2 * (r * cw + k) + i) % 2 = i := by omega
  have hrow : (r * cw + k) / cw = r := by
    rw [Nat.mul_comm, Nat.mul_add_div (by omega), Nat.div_eq_of_lt hk, Nat.add_zero]
  have hcol : (r * cw + k) % cw = k := by rw [Nat.mul_add_mod_self_right, Nat.mod_eq_of_lt hk]
  rw [State.unpackedByte, hindex, hbyte, hrow, hcol]

/-- Planes that do not overlap keep each what was written to it (R183, R184). -/
theorem planesWritten_read (s : State) (c : Fin 4) (off : Nat) (hoff : off < 2 * (s.width / 2) * (s.height / 2))
    (hapart : ∀ d : Fin 4, c ≠ d → ¬ overlap (plane s c) (2 * (s.width / 2) * (s.height / 2)) (plane s d)
      (2 * (s.width / 2) * (s.height / 2))) :
    s.planesWritten.read (plane s c + off) = s.unpackedByte (s.width / 2) c off := by
  have hother : ∀ d : Fin 4, c ≠ d → ¬ (plane s d ≤ plane s c + off
      ∧ plane s c + off < plane s d + 2 * (s.width / 2) * (s.height / 2)) := fun d hd hin =>
    hapart d hd ⟨by omega, by omega, by omega, by omega⟩
  have hown : plane s c ≤ plane s c + off ∧ plane s c + off < plane s c + 2 * (s.width / 2) * (s.height / 2) := by
    omega
  unfold plane at *
  simp only [State.planesWritten, Memory.read_writeRange]
  match c with
  | 0 =>
    rw [if_neg (hother 3 (by decide)), if_neg (hother 2 (by decide)), if_neg (hother 1 (by decide)), if_pos hown,
      Nat.add_sub_cancel_left]
  | 1 => rw [if_neg (hother 3 (by decide)), if_neg (hother 2 (by decide)), if_pos hown, Nat.add_sub_cancel_left]
  | 2 => rw [if_neg (hother 3 (by decide)), if_pos hown, Nat.add_sub_cancel_left]
  | 3 => rw [if_pos hown, Nat.add_sub_cancel_left]

/-! ## The whole phase -/

/-- Every bit of STATUS after UNPACK's effects (R177, R184). -/
theorem unpackEffects_bit (s : State) (i : Nat) :
    (unpackEffects s).regs.status.getLsbD i =
      if i = 4 then true else if i = 6 then stBit s 6 || s.underflows else stBit s i := by
  rw [unpackEffects, State.bit_setFlag, State.bit_setFlag]
  rfl

/-- With a valid header and all checks met UNPACK completes with its effects. -/
theorem exec_unpack_of_fits (s : State) (hhdr : stBit s 3 = true)
    (hfits : unpackFits s (imgW s) (imgH s) s.regs.stride.toNat) :
    exec .unpack s = .next (completeOk (unpackEffects s)) := by
  obtain ⟨hb, hsource, hw, hh, hpos, hscan, hplanes, hapart⟩ := hfits
  have hcheck : unpackCheck s = none := by
    rw [unpackCheck_eq s hpos, if_neg (ne_true_of_eq_false · hhdr), if_neg hb, if_neg (not_lt.2 hsource),
      if_neg (not_lt.2 hscan), if_neg (not_exists.2 fun c => not_lt.2 (hplanes c)),
      if_neg (mt (someOverlap_planes_iff s _ _).1 (not_not.2 hapart))]
  have hframe : s.frameDefined = true := by
    rw [State.frameDefined, width_eq_imgW, height_eq_imgH, hw, hh]; rfl
  rw [exec_unpack, unpackPhase, hcheck]
  simp only [hframe, if_true, complete]

/-- A plane sample that UNPACK wrote is the corrected pixel (R172, R184). -/
theorem sampleOf_unpackEffects (s : State) (hb : bl s ≠ 1023) (hm : mode s ≠ 3)
    (hapart : planesApart s (2 * (imgW s / 2) * (imgH s / 2))) (c : Fin 4) (r k : Nat) (hr : r < imgH s / 2)
    (hk : k < imgW s / 2) :
    sampleOf (unpackEffects s) (imgW s / 2) c r k
      = corrected (mode s) (rawAt s s.regs.stride.toNat (2 * k + c.val % 2) (2 * r + c.val / 2)) (bl s) := by
  have hbyte : ∀ i, i < 2 → s.planesWritten.read (plane s c + (2 * (r * (imgW s / 2) + k) + i))
      = (s.unpackedSample c r k).extractLsb' (8 * i) 8 := fun i hi => by
    have hoff := sample_offset_lt _ _ r k hr hk
    rw [← unpackedByte_of_sample s (imgW s / 2) c r k i hk hi]
    simp only [← width_eq_imgW, ← height_eq_imgH] at hoff hapart ⊢
    exact planesWritten_read s c _ (by omega) (hapart.1 c)
  have hcorr : (s.unpackedSample c r k).toNat
      = corrected (mode s) (rawAt s s.regs.stride.toNat (2 * k + c.val % 2) (2 * r + c.val / 2)) (bl s) := by
    rw [← rawPixel_toNat]
    have hpixel := (s.rawPixel (2 * k + c.val % 2) (2 * r + c.val / 2)).isLt
    have hblack : bl s < 1024 := (s.regs.blackLevel.extractLsb' 0 10).isLt
    have hlevel : bl s ≤ 1022 := by omega
    exact corr_toNat_eq_corrected _ _ (by omega) hlevel _ fun h => hm (congrArg BitVec.toNat h)
  rw [← hcorr, ← half_bytes, ← hbyte 0 (by omega), ← hbyte 1 (by omega)]
  rfl

/-- Settles O34: the completed phase, with its bits, its samples and its frame from the lemmas on its effects. -/
theorem unpackWritesCorrectedPlanes : Obligations.UnpackWritesCorrectedPlanes := by
  intro s hhdr hm hfits
  have hexec := exec_unpack_of_fits s hhdr hfits
  obtain ⟨hb, -, -, -, -, -, -, hapart⟩ := hfits
  have hbit : ∀ i, stBit (completeOk (unpackEffects s)) i =
      if i = 1 then true else if i = 0 then false
      else if i = 4 then true else if i = 6 then stBit s 6 || s.underflows else stBit s i := fun i => by
    rw [stBit, completeOk_bit, unpackEffects_bit]
  refine ⟨_, hexec, rfl, fun i hi => ?bits, ?uflow, sampleOf_unpackEffects s hb hm hapart,
    fun a ha => ?frame⟩
  case bits =>
    rw [hbit, if_neg hi]
    by_cases h4 : i = 4
    · subst h4; rfl
    · simp only [h4, or_false, if_false]
  case uflow =>
    rw [hbit, ← underflows_iff, ← Bool.or_eq_true]
    rfl
  case frame =>
    refine unpackEffects_read s a fun c => ?_
    rw [width_eq_imgW, height_eq_imgH]
    exact ha c

end Sys2Proof.Machine
end

section
/-! The gain: a truncated ratio, clipped, and its values over a zero sum (R206, R207). -/

namespace Sys2Proof.Machine

/-- Over a sum that is not zero the gain is the clipped quotient (R206). -/
theorem gain_of_pos (num den : Nat) (h : 0 < den) : gain num den = min (max (num / den) 32) 255 :=
  if_neg h.ne'

theorem gain_zero_sum (num : Nat) : gain num 0 = if 0 < num then 255 else 32 := rfl

theorem gain_below (num den : Nat) (hden : 0 < den) (h : num < 32 * den) : gain num den = 32 := by
  have hquot : num / den < 32 := (Nat.div_lt_iff_lt_mul hden).2 h
  rw [gain_of_pos num den hden]; omega

theorem gain_above (num den : Nat) (hden : 0 < den) (h : 256 * den ≤ num) : gain num den = 255 := by
  have hquot : 256 ≤ num / den := (Nat.le_div_iff_mul_le hden).2 h
  rw [gain_of_pos num den hden]; omega

/-- A quotient inside the clipping range is the gain itself. -/
theorem gain_between (num den g : Nat) (hmin : 32 ≤ g) (hmax : g ≤ 255) (hlow : g * den ≤ num)
    (hhigh : num < (g + 1) * den) : gain num den = g := by
  have hden : 0 < den := Nat.pos_of_ne_zero fun h => by simp [h] at hhigh
  have hquot : num / den = g := Nat.div_eq_of_lt_le hlow hhigh
  rw [gain_of_pos num den hden]; omega

/-- Settles O36: below, above and inside the clipping range, and over a zero sum. -/
theorem gainIsClippedRatio : Obligations.GainIsClippedRatio := fun num den =>
  ⟨gain_below num den, gain_above num den, gain_between num den,
    fun hnum => (gain_zero_sum num).trans (if_pos hnum), gain_zero_sum 0⟩

end Sys2Proof.Machine
end

section
/-! SAMPLE's checks, in the terms of the statements (R209 to R211, R262). -/

namespace Sys2Proof.Machine

open Sys2Proof.Claims

theorem exec_sample (s : State) : exec .sample s = complete 3#4 3#4 (samplePhase s) := rfl

theorem chWidth_eq_chW (s : State) : s.chWidth = chW s := lowHalf_eq s.regs.chDim

theorem chHeight_eq_chH (s : State) : s.chHeight = chH s := highHalf_eq s.regs.chDim

theorem gridWidth_eq_grW (s : State) : s.gridWidth = grW s := lowHalf_eq s.regs.gridDim

theorem gridHeight_eq_grH (s : State) : s.gridHeight = grH s := highHalf_eq s.regs.gridDim

theorem tableRegion_eq (s : State) : s.tableRegion = ⟨s.regs.gtBase.toNat, 4 * grW s * grH s⟩ := by
  rw [State.tableRegion, gridWidth_eq_grW, gridHeight_eq_grH]

/-- OVERLAP compares the gain table with each plane and with the source (R211). -/
theorem tableOverlap_iff (s : State) (cw ch : Nat) :
    (s.planeRegions cw ch ++ [s.sourceRegion]).any (regionsOverlap s.tableRegion) = true
      ↔ (∃ c : Fin 4, overlap s.regs.gtBase.toNat (4 * grW s * grH s) (plane s c) (2 * cw * ch))
        ∨ overlap s.regs.gtBase.toNat (4 * grW s * grH s) (src s) (len s) := by
  simp only [List.any_append, List.any_cons, List.any_nil, Bool.or_false, Bool.or_eq_true, List.any_eq_true,
    mem_planeRegions, regionsOverlap_iff, tableRegion_eq]
  refine or_congr ⟨?_, ?_⟩ Iff.rfl
  · rintro ⟨_, ⟨c, rfl⟩, hclash⟩
    exact ⟨c, hclash⟩
  · rintro ⟨c, hclash⟩
    exact ⟨_, ⟨c, rfl⟩, hclash⟩

/-- SAMPLE's checks on the numbers of the statements, in the order of R262. -/
theorem sampleCheck_eq (s : State) :
    sampleCheck s =
      if stBit s 3 = false ∨ stBit s 4 = false then some .seq
      else if ∃ c : Fin 4, 2 ^ 32 < plane s c + 2 * chW s * chH s then some .bounds
      else if 2 ^ 32 < s.regs.gtBase.toNat + 4 * grW s * grH s then some .bounds
      else if (s.planeRegions (chW s) (chH s) ++ [s.sourceRegion]).any (regionsOverlap s.tableRegion) = true then
        some .overlap
      else none := by
  have htable : ¬ regionInRange s.tableRegion = true ↔ 2 ^ 32 < s.regs.gtBase.toNat + 4 * grW s * grH s := by
    rw [regionInRange_iff, tableRegion_eq]; exact not_le
  unfold sampleCheck
  rw [chWidth_eq_chW, chHeight_eq_chH]
  exact if_congr (or_congr (Bool.not_eq_true _).to_iff (Bool.not_eq_true _).to_iff) rfl
    (if_congr (planes_past_iff s _ _) rfl (if_congr htable rfl rfl))

/-- A failing check completes SAMPLE with nothing changed but STATUS and ERRCODE (R262). -/
theorem exec_sample_of_check (s : State) (code : ErrCode) (h : sampleCheck s = some code) :
    ∃ t, exec .sample s = .next t ∧ endsInError s t 3#4 3#4 (errNumber code) := by
  refine ⟨completeError 3#4 3#4 code s, ?_, endsInError_completeError s _ _ _⟩
  rw [exec_sample, samplePhase, h, complete]

/-- Both validity flags set pass the SEQ check (R209). -/
theorem validityFlags_ne_false (s : State) (hhdr : stBit s 3 = true) (hplanes : stBit s 4 = true) :
    ¬ (stBit s 3 = false ∨ stBit s 4 = false) := by
  simp [hhdr, hplanes]

/-- Settles O39: each clause is the branch of the checks at which its hypotheses stop. -/
theorem sampleReportsTheFirstError : Obligations.SampleReportsTheFirstError := by
  intro s
  refine ⟨fun hflags => ?seq, fun hhdr hplanes hpast => ?bounds,
    fun hhdr hplanes hin htable hclash => ?overlap⟩
  case seq =>
    refine exec_sample_of_check s .seq ?_
    rw [sampleCheck_eq, if_pos hflags]
  case bounds =>
    refine exec_sample_of_check s .bounds ?_
    rw [sampleCheck_eq, if_neg (validityFlags_ne_false s hhdr hplanes), ← ite_or, if_pos hpast]
  case overlap =>
    refine exec_sample_of_check s .overlap ?_
    rw [sampleCheck_eq, if_neg (validityFlags_ne_false s hhdr hplanes),
      if_neg (not_exists.2 fun c => not_lt.2 (hin c)), if_neg (not_lt.2 htable),
      if_pos ((tableOverlap_iff s _ _).2 hclash)]

end Sys2Proof.Machine
end

section
/-! SAMPLE's effects: MIDDLE0 .. MIDDLE3, the gain table, DIV0 and GRID_VALID (R200 to R208, R212 to R214). -/

namespace Sys2Proof.Machine

open Sys2Proof.Claims

/-! ## The samples and the reference brightness -/

theorem sampleAt_eq_sampleOf (s : State) (c : Fin 4) (r k : Nat) :
    s.sampleAt c r k = sampleOf s (chW s) c r k := by
  rw [sampleAt_eq, chWidth_eq_chW]; rfl

/-- A sample is two bytes. -/
theorem sampleOf_le (s : State) (cw : Nat) (c : Fin 4) (r k : Nat) : sampleOf s cw c r k ≤ 65535 := by
  have hlow := (s.mem.read (plane s c + 2 * (r * cw + k))).isLt
  have hhigh := (s.mem.read (plane s c + 2 * (r * cw + k) + 1)).isLt
  unfold sampleOf byteAt
  omega

theorem sum_map_range_le (n b : Nat) (f : Nat → Nat) (h : ∀ i, f i ≤ b) :
    ((List.range n).map f).sum ≤ n * b := by
  simpa using List.sum_le_card_nsmul ((List.range n).map f) b (by simpa using fun i _ => h i)

/-- The brightness of a patch of full-scale samples bounds every other (R201). -/
theorem brightness_le (s : State) (c : Fin 4) : brightness s c ≤ 2097120 :=
  calc brightness s c
      ≤ 9 * (9 * 65535) / 81 * 32 :=
        Nat.mul_le_mul_right 32 (Nat.div_le_div_right (sum_map_range_le 9 _ _ fun _ =>
          sum_map_range_le 9 _ _ fun _ => sampleOf_le _ _ _ _ _))
    _ = 2097120 := rfl

/-- With the patch inside the plane it does not matter whether its half width is taken off before or after the
offset in the patch is added (R201). -/
theorem middleOf_eq_brightness (s : State) (c : Fin 4) (hw : 9 ≤ chW s) (hh : 9 ≤ chH s) :
    s.middleOf c = brightness s c := by
  have hrow : ∀ i, chH s / 2 - 4 + i = chH s / 2 + i - 4 := by omega
  have hcol : ∀ j, chW s / 2 - 4 + j = chW s / 2 + j - 4 := by omega
  simp only [State.middleOf, State.patchSum, sampleAt_eq_sampleOf, chHeight_eq_chH, chWidth_eq_chW, hrow, hcol]
  rfl

/-! ## The grid walk -/

/-- The physical plane of a logical channel (R200). -/
theorem physicalPlane_eq_channelPlane (s : State) (l : Fin 4) :
    physicalPlane l s.orderIndex = channelPlane s l := by
  have hindex : s.orderIndex.toNat = s.regs.bayerOrder.toNat % 4 := by
    simp [State.orderIndex, BitVec.extractLsb'_toNat]
  have hlt : l.val ^^^ s.regs.bayerOrder.toNat % 4 < 2 ^ 2 :=
    Nat.xor_lt_two_pow l.isLt (Nat.mod_lt _ (by omega))
  refine Fin.ext ?_
  calc (physicalPlane l s.orderIndex).val
      = l.val ^^^ s.orderIndex.toNat := BitVec.toNat_xor _ _
    _ = l.val ^^^ s.regs.bayerOrder.toNat % 4 := by rw [hindex]
    _ = (channelPlane s l).val := (Nat.mod_eq_of_lt hlt).symm

/-- The edge column is the last one (R203). -/
theorem edgeColumn_iff (s : State) (j : Nat) (hj : j < grW s) : j + 1 = s.gridWidth ↔ j = grW s - 1 := by
  rw [gridWidth_eq_grW]; omega

theorem gainNum_eq_gridNum (s : State) (c : Fin 4) (j : Nat) (hj : j < grW s) (hw : 9 ≤ chW s) (hh : 9 ≤ chH s) :
    s.gainNum c j = gridNum s c j := by
  simp only [State.gainNum, gridNum, edgeColumn_iff s j hj, middleOf_eq_brightness s c hw hh, Nat.mul_comm]

theorem gridRow_eq_walkRow (s : State) (kr : Nat) : s.gridRow kr = walkRow s kr := by
  rw [State.gridRow, chHeight_eq_chH]; rfl

theorem gridColumn_eq (j : Nat) : gridColumn j = 16 + 32 * j := rfl

theorem gainDen_eq_gridSum (s : State) (c : Fin 4) (kr j : Nat) (hj : j < grW s) :
    s.gainDen c kr j = gridSum s c kr j := by
  have hleft : 16 + 32 * j - 1 = 15 + 32 * j := by omega
  have hright : 16 + 32 * j + 1 = 17 + 32 * j := by omega
  simp only [State.gainDen, gridSum, edgeColumn_iff s j hj, gridRow_eq_walkRow, sampleAt_eq_sampleOf, chWidth_eq_chW,
    gridColumn_eq, hleft, hright]

theorem gainAt_eq (s : State) (l : Fin 4) (kr j : Nat) (hj : j < grW s) (hw : 9 ≤ chW s) (hh : 9 ≤ chH s) :
    s.gainAt l kr j = gain (gridNum s (channelPlane s l) j) (gridSum s (channelPlane s l) kr j) := by
  rw [State.gainAt, physicalPlane_eq_channelPlane, gainNum_eq_gridNum s _ j hj hw hh, gainDen_eq_gridSum s _ kr j hj]

/-- Some gain of the grid meets a zero sum (R214). -/
theorem zeroDenominator_iff (s : State) :
    s.zeroDenominator = true
      ↔ ∃ l kr j, kr < grH s ∧ j < grW s ∧ gridSum s (channelPlane s l) kr j = 0 := by
  have hchannels : ∀ l : Fin 4, l ∈ [0, 1, 2, 3] := by decide
  simp only [State.zeroDenominator, List.any_eq_true, List.mem_range, beq_iff_eq, hchannels, true_and,
    gridHeight_eq_grH, gridWidth_eq_grW, physicalPlane_eq_channelPlane]
  constructor
  · rintro ⟨l, kr, hkr, j, hj, hzero⟩
    exact ⟨l, kr, j, hkr, hj, gainDen_eq_gridSum s _ kr j hj ▸ hzero⟩
  · rintro ⟨l, kr, j, hkr, hj, hzero⟩
    exact ⟨l, kr, hkr, j, hj, (gainDen_eq_gridSum s _ kr j hj).trans hzero⟩

/-! ## The gain table -/

/-- The offset of a gain in the table determines channel, row and column (R208). -/
theorem tableOffset_digits (gw gh l kr j : Nat) (hkr : kr < gh) (hj : j < gw) :
    (l * gw * gh + kr * gw + j) / (gw * gh) = l ∧ (l * gw * gh + kr * gw + j) / gw % gh = kr
      ∧ (l * gw * gh + kr * gw + j) % gw = j := by
  have hoff : l * gw * gh + kr * gw + j = gw * (l * gh + kr) + j := by ring
  have hcell : (l * gw * gh + kr * gw + j) / gw = gh * l + kr := by
    rw [hoff, Nat.mul_add_div (by omega), Nat.div_eq_of_lt hj, Nat.add_zero, Nat.mul_comm l]
  refine ⟨?_, ?_, ?_⟩
  · rw [← Nat.div_div_eq_div_mul, hcell, Nat.mul_add_div (by omega), Nat.div_eq_of_lt hkr, Nat.add_zero]
  · rw [hcell, Nat.mul_add_mod, Nat.mod_eq_of_lt hkr]
  · rw [hoff, Nat.mul_add_mod, Nat.mod_eq_of_lt hj]

/-- Every gain of the grid lies inside the table (R78, R208). -/
theorem tableOffset_lt (gw gh kr j : Nat) (l : Fin 4) (hkr : kr < gh) (hj : j < gw) :
    l.val * gw * gh + kr * gw + j < 4 * gw * gh := by
  have hrow : (kr + 1) * gw ≤ gw * gh := Nat.mul_comm gh gw ▸ Nat.mul_le_mul_right gw hkr
  have hchannel : (l.val + 1) * (gw * gh) ≤ 4 * (gw * gh) := Nat.mul_le_mul_right _ l.isLt
  rw [Nat.succ_mul] at hrow hchannel
  rw [Nat.mul_assoc, Nat.mul_assoc]
  omega

theorem tableByte_of_gain (s : State) (l : Fin 4) (kr j : Nat) (hkr : kr < grH s) (hj : j < grW s) :
    s.tableByte (l.val * grW s * grH s + kr * grW s + j) = BitVec.ofNat 8 (s.gainAt l kr j) := by
  obtain ⟨hchannel, hrow, hcol⟩ := tableOffset_digits (grW s) (grH s) l.val kr j hkr hj
  rw [State.tableByte, gridWidth_eq_grW, gridHeight_eq_grH, hchannel, hrow, hcol, Fin.ofNat_val_eq_self]

theorem sampleEffects_mem (s : State) : (sampleEffects s).mem = s.tableWritten := rfl

/-- The byte at a gain's offset of the table SAMPLE writes is that gain: it fits its byte (R206, R208). -/
theorem byteAt_sampleEffects (s : State) (l : Fin 4) (kr j : Nat) (hkr : kr < grH s) (hj : j < grW s)
    (hw : 9 ≤ chW s) (hh : 9 ≤ chH s) :
    byteAt (sampleEffects s) (s.regs.gtBase.toNat + l.val * grW s * grH s + kr * grW s + j)
      = gain (gridNum s (channelPlane s l) j) (gridSum s (channelPlane s l) kr j) := by
  have hoff := tableOffset_lt (grW s) (grH s) kr j l hkr hj
  have hread : (sampleEffects s).mem.read (s.regs.gtBase.toNat + (l.val * grW s * grH s + kr * grW s + j))
      = s.tableByte (l.val * grW s * grH s + kr * grW s + j) := by
    rw [sampleEffects_mem, State.tableWritten, Memory.read_writeRange, gridWidth_eq_grW, gridHeight_eq_grH,
      if_pos (by omega), Nat.add_sub_cancel_left]
  have haddr : s.regs.gtBase.toNat + l.val * grW s * grH s + kr * grW s + j
      = s.regs.gtBase.toNat + (l.val * grW s * grH s + kr * grW s + j) := by omega
  have hfits := gain_le (gridNum s (channelPlane s l) j) (gridSum s (channelPlane s l) kr j)
  rw [byteAt, haddr, hread, tableByte_of_gain s l kr j hkr hj, gainAt_eq s l kr j hj hw hh, BitVec.toNat_ofNat,
    Nat.mod_eq_of_lt (by omega)]

/-! ## The registers -/

/-- Writing a flag keeps every register but STATUS. -/
theorem State.get_setFlag (s : State) (f : Flag) (b : Bool) (x : Reg) (hx : x ≠ .status) :
    (s.setFlag f b).regs.get x = s.regs.get x := Regs.get_setStatus _ _ x hx

theorem completeOk_get (s : State) (x : Reg) (hx : x ≠ .status) : (completeOk s).regs.get x = s.regs.get x := by
  rw [completeOk, State.get_setFlag _ _ _ x hx, State.get_setFlag _ _ _ x hx]

/-- SAMPLE's results in registers go to the four MIDDLE ones alone (R213). -/
theorem State.middleRegs_get (s : State) (x : Reg) (hx : ∀ c, x ≠ .middle c) :
    s.middleRegs.get x = s.regs.get x := by
  cases x with
  | middle c => exact absurd rfl (hx c)
  | _ => rfl

theorem sampleEffects_get (s : State) (x : Reg) (hx : x ≠ .status) :
    (sampleEffects s).regs.get x = s.middleRegs.get x := by
  rw [sampleEffects, State.get_setFlag _ _ _ x hx, State.get_setFlag _ _ _ x hx]; rfl

/-- MIDDLEc after SAMPLE, as a number: it does not overflow its register (R201, R213). -/
theorem sampleEffects_middle (s : State) (c : Fin 4) (hw : 9 ≤ chW s) (hh : 9 ≤ chH s) :
    ((sampleEffects s).regs.get (.middle c)).toNat = brightness s c := by
  have hle := brightness_le s c
  rw [sampleEffects_get s _ (by simp), Regs.get, State.middleRegs_middle, middleOf_eq_brightness s c hw hh,
    BitVec.toNat_ofNat, Nat.mod_eq_of_lt (by omega)]

/-- Every bit of STATUS after SAMPLE's effects (R213, R214). -/
theorem sampleEffects_bit (s : State) (i : Nat) :
    (sampleEffects s).regs.status.getLsbD i =
      if i = 5 then true else if i = 7 then stBit s 7 || s.zeroDenominator else stBit s i := by
  rw [sampleEffects, State.bit_setFlag, State.bit_setFlag]
  rfl

/-! ## The whole phase -/

/-- A grid of the size that R148 gives its planes: every sample it reads lies in its plane. -/
theorem gridDefined_of_dims (s : State) (hw : 9 ≤ chW s) (hh : 9 ≤ chH s) (hgw : grW s = (chW s + 31) / 32) :
    s.gridDefined = true := by
  simp only [State.gridDefined, chWidth_eq_chW, chHeight_eq_chH, gridWidth_eq_grW, gridHeight_eq_grH, gridColumn,
    Config.start, Config.pitch, Bool.and_eq_true, Bool.or_eq_true, decide_eq_true_eq]
  omega

/-- With both validity flags and all checks met SAMPLE completes with its effects. -/
theorem exec_sample_of_fits (s : State) (hhdr : stBit s 3 = true) (hvalid : stBit s 4 = true)
    (hfits : sampleFits s (chW s) (chH s)) (hgw : grW s = (chW s + 31) / 32) (hgh : grH s = (chH s + 31) / 32) :
    exec .sample s = .next (completeOk (sampleEffects s)) := by
  obtain ⟨hw, hh, hplanes, htable, hapart, hsource⟩ := hfits
  rw [← hgw, ← hgh] at htable hapart hsource
  have hcheck : sampleCheck s = none := by
    rw [sampleCheck_eq, if_neg (validityFlags_ne_false s hhdr hvalid),
      if_neg (not_exists.2 fun c => not_lt.2 (hplanes c)), if_neg (not_lt.2 htable),
      if_neg (mt (tableOverlap_iff s _ _).1 (not_or.2 ⟨not_exists.2 hapart, hsource⟩))]
  rw [exec_sample, samplePhase, hcheck]
  simp only [gridDefined_of_dims s hw hh hgw, if_true, complete]

/-- Settles O38: the completed phase, with its registers, its bits, its gains and its frame from the lemmas on its
effects. -/
theorem sampleWritesTheGainTable : Obligations.SampleWritesTheGainTable := by
  intro s hhdr hvalid hfits hgw hgh
  have hexec := exec_sample_of_fits s hhdr hvalid hfits hgw hgh
  obtain ⟨hw, hh, -⟩ := hfits
  have hbit : ∀ i, stBit (completeOk (sampleEffects s)) i =
      if i = 1 then true else if i = 0 then false
      else if i = 5 then true else if i = 7 then stBit s 7 || s.zeroDenominator else stBit s i := fun i => by
    rw [stBit, completeOk_bit, sampleEffects_bit]
  refine ⟨_, hexec, rfl, fun x hst hmid => ?others, fun c => ⟨?middle, brightness_le s c⟩, fun i hi => ?bits, ?div0,
    fun l kr j hkr hj => byteAt_sampleEffects s l kr j hkr hj hw hh, fun a ha => ?frame⟩
  case others => rw [completeOk_get _ x hst, sampleEffects_get s x hst, State.middleRegs_get s x hmid]
  case middle =>
    rw [← sampleEffects_middle s c hw hh, ← completeOk_get (sampleEffects s) _ (by simp)]
    rfl
  case bits =>
    rw [hbit, if_neg hi]
    by_cases h5 : i = 5
    · subst h5; rfl
    · simp only [h5, or_false, if_false]
  case div0 =>
    rw [hbit, ← zeroDenominator_iff, ← Bool.or_eq_true]
    rfl
  case frame =>
    refine sampleEffects_read s a ?_
    rw [tableRegion_eq]
    exact ha

end Sys2Proof.Machine
end

section
/-! The issue of a command: a write of CMD while idle (R242). -/

namespace Sys2Proof.Machine

open Sys2Proof.Claims

/-! ## A write of CMD while idle -/

theorem exec_softReset (s : State) : exec .softReset s = .next (resetBlock s) := rfl

theorem exec_regWrite (idx : BitVec 10) (data : Word) (s : State) :
    exec (.regWrite idx data) s =
      if s.flag .busy then .next (writeBusy idx data s) else .next (writeIdle idx data s) := rfl

/-- A write of CMD while idle is an issue (R242). -/
theorem exec_regWrite_cmd_of_idle (s : State) (w : Word) (hidle : s.flag .busy = false) :
    exec (.regWrite 2#10 w) s = .next (issueCommand w s) := by
  have hcmd : regAt 2#10 = some .cmd := regAt_regIndex .cmd
  rw [exec_regWrite, hidle, if_neg Bool.false_ne_true, writeIdle, hcmd]

/-! ## STATUS after an accepted word -/

/-- Writing CUR_OP keeps every bit of STATUS outside [15:12] (R25). -/
theorem State.bit_setCurOp (s : State) (op : BitVec 4) (i : Nat) (hi : i < 12 ∨ 16 ≤ i) :
    (s.setCurOp op).regs.status.getLsbD i = s.regs.status.getLsbD i := by
  rw [State.setCurOp_regs, Regs.setStatus_status, statusWithCurOp, BitVec.getLsbD_append, BitVec.getLsbD_append]
  rcases hi with hlow | hhigh
  · rw [if_pos hlow, BitVec.getLsbD_extractLsb']
    simp [hlow]
  · rw [if_neg (by omega), if_neg (by omega), BitVec.getLsbD_extractLsb', show 16 + (i - 12 - 4) = i by omega]
    by_cases h32 : i < 32
    · simp; omega
    · simp [BitVec.getLsbD_of_ge, Nat.not_lt.mp h32]

@[simp] theorem clearValidity_curOp (i : Instr) (s : State) : (clearValidity i s).curOp = s.curOp := by
  cases i <;> simp only [clearValidity, State.curOp_setFlag]

/-- CUR_OP names the accepted word by its low four bits (R242). -/
theorem acceptCommand_curOp (w : Word) (s : State) : (acceptCommand w s).curOp = w.extractLsb' 0 4 := by
  simp only [acceptCommand, clearValidity_curOp, State.setErrcode_curOp, State.curOp_setFlag, State.curOp_setCurOp]

/-- Every bit of STATUS outside CUR_OP after an accepted word: the validity flags of what the command replaces, BUSY,
DONE and ERR, and all else as it was (R242). -/
theorem acceptCommand_bit (w : Word) (s : State) (i : Nat) (hi : i < 12 ∨ 16 ≤ i) :
    (acceptCommand w s).regs.status.getLsbD i =
      if (i = 3 ∧ (w = 1#32 ∨ w = 4#32)) ∨ (i = 4 ∧ (w = 1#32 ∨ w = 2#32 ∨ w = 4#32))
        ∨ (i = 5 ∧ (w = 1#32 ∨ w = 2#32 ∨ w = 3#32 ∨ w = 4#32)) then false
      else if i = 2 then false else if i = 1 then false else if i = 0 then true
      else s.regs.status.getLsbD i := by
  refine (clearValidity_bit (decodeCommand w) _ i).trans (if_congr ?cleared rfl ?kept)
  case cleared =>
    obtain ⟨hparse, hunpack, hsample, hrun, -⟩ := decodeCommand_iff w
    rw [hparse, hunpack, hsample, hrun, or_comm (a := w = 4#32) (b := w = 2#32),
      or_comm (a := w = 4#32) (b := w = 2#32 ∨ w = 3#32), or_assoc]
  case kept =>
    rw [State.setErrcode_regs, Regs.setErrcode_status, State.bit_setFlag, State.bit_setFlag,
      State.bit_setCurOp _ _ _ hi, State.bit_setFlag]
    rfl

/-- Settles O20: the write is an issue, and what an accepted word leaves is read off `acceptCommand_eq`,
`acceptCommand_bit` and `acceptCommand_curOp`. -/
theorem issueAcceptsTheWord : Obligations.IssueAcceptsTheWord := by
  intro s w hidle
  have hexec := exec_regWrite_cmd_of_idle s w hidle
  refine ⟨fun hreset => ?reset, fun hcommand => ?accept⟩
  case reset => rw [hexec, issueCommand, if_pos hreset, exec_softReset]
  case accept =>
    rw [issueCommand, if_neg hcommand] at hexec
    refine ⟨_, hexec, acceptCommand_eq w s, ?busy, ?done, ?err, ?hdrValid, ?planesValid, ?gridValid,
      fun i hi => ?others, acceptCommand_curOp w s⟩
    case others =>
      rw [stBit, acceptCommand_bit w s i (by omega), if_neg (by omega), if_neg (by omega), if_neg (by omega),
        if_neg (by omega)]
      rfl
    all_goals rw [stBit, acceptCommand_bit w s _ (by omega)]
    case busy | done | err => simp
    case hdrValid | planesValid | gridValid => simp [stBit]

end Sys2Proof.Machine
end

section
/-! The interrupt line (R271). -/

namespace Sys2Proof.Machine

open Sys2Proof.Claims

/-- A flag is the bit of STATUS that the table of R25 gives it. -/
theorem State.flag_eq_stBit (s : State) (f : Flag) : s.flag f = stBit s (flagBit f) := rfl

/-- The line is the OR of two terms, each a flag under its own enable (R271). -/
theorem State.irq_iff (s : State) :
    s.irq = true ↔ (s.flag .done = true ∧ s.ieDone = true) ∨ (s.flag .err = true ∧ s.ieErr = true) := by
  rw [State.irq, Bool.or_eq_true, Bool.and_eq_true, Bool.and_eq_true]

/-- Settles O57: `State.irq_iff`, with DONE and ERR at bits 1 and 2 of STATUS (R25) and their enables at bits 0 and 1
of CTRL (R23). -/
theorem interruptLineFollowsStatus : Obligations.InterruptLineFollowsStatus := by
  intro s
  have hdone : s.flag .done = stBit s 1 := s.flag_eq_stBit .done
  have herr : s.flag .err = stBit s 2 := s.flag_eq_stBit .err
  rw [s.irq_iff, hdone, herr, State.ieDone, State.ieErr]

end Sys2Proof.Machine
end

section
/-! Encoding and decoding: command words by their two fields, packets by their four (R100 to R105). -/

namespace Sys2Proof

/-! ## Command words -/

/-- The words of R103 have the reserved bits 0, so that a word with one of them set spells ILLEGAL by all its bits
(R105). -/
theorem decodeCommand_of_reserved_bits (rsv : BitVec 28) (op : BitVec 4) (h : rsv ≠ 0#28) :
    decodeCommand (rsv ++ op) = .illegalBits rsv op := by
  have hmap : ∀ c : Word, c.extractLsb' 4 28 = 0#28 → (rsv ++ op : Word) ≠ c := fun c hc heq =>
    h ((command_rsv rsv op).symm.trans (heq ▸ hc))
  unfold decodeCommand
  rw [if_neg (hmap _ (by decide)), if_neg (hmap _ (by decide)), if_neg (hmap _ (by decide)),
    if_neg (hmap _ (by decide)), if_neg (hmap _ (by decide)), if_neg (hmap _ (by decide)), command_rsv, command_op,
    if_neg h]

/-- The opcode map on the sixteen words whose reserved bits are 0: 5 to 14 are the reserved opcodes (R104). -/
theorem decodeCommand_of_reserved_opcode :
    ∀ op : BitVec 4, 5 ≤ op.toNat → op.toNat ≤ 14 → decodeCommand (0#28 ++ op) = .illegalOpcode op := by decide

/-- Each of those sixteen words is the encoding of what it spells (R103, R104). -/
theorem encode_decodeCommand_of_opcode :
    ∀ op : BitVec 4, encode (decodeCommand (0#28 ++ op)) = .command (0#28 ++ op)
      ∧ (decodeCommand (0#28 ++ op)).wellFormed = true := by decide

/-- A command word is the encoding of what it spells: one with a reserved bit set keeps all its bits (R105). -/
theorem encode_decodeCommand (w : Word) :
    encode (decodeCommand w) = .command w ∧ (decodeCommand w).wellFormed = true := by
  rw [← command_eta w]
  generalize w.extractLsb' 4 28 = rsv
  generalize w.extractLsb' 0 4 = op
  by_cases hrsv : rsv = 0#28
  · subst hrsv; exact encode_decodeCommand_of_opcode op
  · rw [decodeCommand_of_reserved_bits rsv op hrsv]
    exact ⟨rfl, bne_iff_ne.2 hrsv⟩

/-- Settles O5: `decodeCommand_of_reserved_opcode` and `decodeCommand_of_reserved_bits`. -/
theorem otherWordsSpellIllegal : Obligations.OtherWordsSpellIllegal :=
  ⟨decodeCommand_of_reserved_opcode, decodeCommand_of_reserved_bits⟩

/-! ## Packets -/

/-- A packet made of its fields, with the reserved bits 0 and W = 1, is a write (R100). -/
theorem decodePacket_write (idx : BitVec 10) (data : Word) :
    decodePacket (1#1 ++ 0#21 ++ idx ++ data) = .ok (.regWrite idx data) := by
  unfold decodePacket
  rw [packet_rsv, packet_w, packet_idx, packet_data, if_neg (not_not.2 rfl), if_pos rfl]

/-- With W = 0 and DATA 0 it is a read (R100, R101). -/
theorem decodePacket_read (idx : BitVec 10) : decodePacket (0#1 ++ 0#21 ++ idx ++ 0#32) = .ok (.regRead idx) := by
  unfold decodePacket
  rw [packet_rsv, packet_w, packet_idx, packet_data, if_neg (not_not.2 rfl), if_neg (by decide),
    if_neg (not_not.2 rfl)]

/-- All that decoding a packet can answer (R100, R101). -/
theorem decodePacket_cases (t : Packet) :
    (t.extractLsb' 42 21 ≠ 0#21 ∧ decodePacket t = .error .reservedBitsSet)
      ∨ (t.extractLsb' 42 21 = 0#21 ∧ t.extractLsb' 63 1 = 1#1
          ∧ decodePacket t = .ok (.regWrite (t.extractLsb' 32 10) (t.extractLsb' 0 32)))
      ∨ (t.extractLsb' 42 21 = 0#21 ∧ t.extractLsb' 63 1 = 0#1 ∧ t.extractLsb' 0 32 ≠ 0#32
          ∧ decodePacket t = .error .readWithData)
      ∨ (t.extractLsb' 42 21 = 0#21 ∧ t.extractLsb' 63 1 = 0#1 ∧ t.extractLsb' 0 32 = 0#32
          ∧ decodePacket t = .ok (.regRead (t.extractLsb' 32 10))) := by
  have hbit : ∀ b : BitVec 1, b = 1#1 ∨ b = 0#1 := by decide
  unfold decodePacket
  by_cases hrsv : t.extractLsb' 42 21 = 0#21
  · rcases hbit (t.extractLsb' 63 1) with hw | hw
    · simp [hrsv, hw]
    · by_cases hdata : t.extractLsb' 0 32 = 0#32 <;> simp [hrsv, hw, hdata]
  · simp [hrsv]

/-- A packet that is a transaction is the encoding of what it spells. -/
theorem encode_of_decodePacket (t : Packet) (i : Instr) (h : decodePacket t = .ok i) : encode i = .packet t := by
  rcases decodePacket_cases t with ⟨-, hd⟩ | ⟨hrsv, hw, hd⟩ | ⟨-, -, -, hd⟩ | ⟨hrsv, hw, hdata, hd⟩ <;> rw [hd] at h
  · cases h
  · obtain rfl := Except.ok.inj h
    conv_rhs => rw [← packet_eta t, hrsv, hw]
    rfl
  · cases h
  · obtain rfl := Except.ok.inj h
    conv_rhs => rw [← packet_eta t, hrsv, hw, hdata]
    rfl

/-- W is one bit of the packet (R100). -/
theorem packet_read_iff (t : Packet) : t.extractLsb' 63 1 = 0#1 ↔ t.getLsbD 63 = false := by
  rw [BitVec.eq_of_getLsbD_eq_iff]
  simp

/-- A value is no transaction where a reserved bit is set or a read carries data (R101). -/
theorem decodePacket_error_iff (t : Packet) :
    (∃ e, decodePacket t = .error e)
      ↔ t.extractLsb' 42 21 ≠ 0#21 ∨ (t.getLsbD 63 = false ∧ t.extractLsb' 0 32 ≠ 0#32) := by
  rw [← packet_read_iff]
  rcases decodePacket_cases t with ⟨hrsv, hd⟩ | ⟨hrsv, hw, hd⟩ | ⟨hrsv, hw, hdata, hd⟩ | ⟨hrsv, hw, hdata, hd⟩ <;>
    simp [*]

/-! ## The whole instruction set -/

/-- Settles O1: a command row by its word, an ILLEGAL row by the range of its operand, a transaction by the fields of
its packet. -/
theorem decodeOfEncode : Obligations.DecodeOfEncode := by
  intro i hwf
  cases i with
  | nop | parse | unpack | sample | run | softReset => rfl
  | illegalOpcode op =>
    obtain ⟨hlow, hhigh⟩ : 5 ≤ op.toNat ∧ op.toNat ≤ 14 := by simpa [Instr.wellFormed] using hwf
    exact congrArg Except.ok (decodeCommand_of_reserved_opcode op hlow hhigh)
  | illegalBits rsv op => exact congrArg Except.ok (decodeCommand_of_reserved_bits rsv op (bne_iff_ne.1 hwf))
  | regWrite idx data => exact decodePacket_write idx data
  | regRead idx => exact decodePacket_read idx

/-- Settles O2: `encode_decodeCommand` for the words, `encode_of_decodePacket` for the packets. -/
theorem encodeOfDecode : Obligations.EncodeOfDecode :=
  ⟨encode_decodeCommand, encode_of_decodePacket⟩

/-- Settles O3: each written-out word, by the opcode map or the packet's fields. -/
theorem writtenOutWordsDecode : Obligations.WrittenOutWordsDecode := by
  unfold Obligations.WrittenOutWordsDecode
  decide

end Sys2Proof
end

section
/-! Registers by offset (R21), and the script lines that name them (R107, R108). -/

namespace Sys2Proof.Machine

open Sys2Proof.Claims

/-! ## The register map -/

/-- The word index of a register is its printed offset divided by 4. -/
theorem regIndex_toNat (x : Reg) : (regIndex x).toNat * 4 = mapOffset x := by
  cases x with
  | planeBase c => revert c; decide
  | hdrName i => revert i; decide
  | middle c => revert c; decide
  | _ => rfl

theorem regIndex_toNat_div (x : Reg) : (regIndex x).toNat = mapOffset x / 4 := by
  rw [← regIndex_toNat, Nat.mul_div_cancel _ (by decide)]

theorem ofNat_mapOffset (x : Reg) : BitVec.ofNat 10 (mapOffset x / 4) = regIndex x := by
  rw [← regIndex_toNat_div, BitVec.ofNat_toNat, BitVec.setWidth_eq]

/-- Which word index stands at a register's offset. -/
theorem regIndex_eq_iff (x : Reg) (idx : BitVec 10) : regIndex x = idx ↔ mapOffset x = idx.toNat * 4 := by
  rw [← regIndex_toNat, BitVec.toNat_eq]; omega

/-- The register found at a word index is the one whose offset the index stands at. -/
theorem regAt_of_mapOffset (x : Reg) (idx : BitVec 10) (h : mapOffset x = idx.toNat * 4) : regAt idx = some x := by
  rw [← (regIndex_eq_iff x idx).2 h, regAt_regIndex]

/-- An index at no register's offset finds none. -/
theorem regAt_of_no_mapOffset (idx : BitVec 10) (h : ∀ x, mapOffset x ≠ idx.toNat * 4) : regAt idx = none :=
  regAt_none idx fun x hx => h x ((regIndex_eq_iff x idx).1 hx)

/-- Settles O6: the map by `regIndex_toNat`, its inverse by `regAt`, and the storage by the equations of `get`. -/
theorem registerMapIsTheTable : Obligations.RegisterMapIsTheTable := by
  refine ⟨regIndex_toNat, fun x => ?found, regAt_of_no_mapOffset, fun r => ?storage⟩
  case found => rw [ofNat_mapOffset, regAt_regIndex]
  case storage => simp [readsItsStorage, Regs.get, Regs.planeBase, Regs.hdrName, Regs.middle, Config.idValue]

/-! ## Script lines -/

theorem packet_eq_ofNat (t : Packet) (n : Nat) (h : t.toNat = n) : t = BitVec.ofNat 64 n := by
  rw [← h, BitVec.ofNat_toNat, BitVec.setWidth_eq]

/-- The packet of a write as a number: W << 63 | IDX << 32 | DATA (R107). -/
theorem packetOf_regWrite (idx : BitVec 10) (data : Word) :
    packetOf (encode (.regWrite idx data)) = BitVec.ofNat 64 (2 ^ 63 + idx.toNat * 2 ^ 32 + data.toNat) :=
  packet_eq_ofNat _ _ ((packet_toNat 1#1 0#21 idx data).trans (by simp))

/-- The packet of a read has W and DATA 0. -/
theorem packetOf_regRead (idx : BitVec 10) :
    packetOf (encode (.regRead idx)) = BitVec.ofNat 64 (idx.toNat * 2 ^ 32) :=
  packet_eq_ofNat _ _ ((packet_toNat 0#1 0#21 idx 0#32).trans (by simp))

theorem scriptIndex_name (x : Reg) : (scriptIndex (.name x)).toNat = mapOffset x / 4 := regIndex_toNat_div x

theorem scriptOffset_wellFormed_iff (off : Nat) :
    (ScriptReg.offset off).wellFormed = true ↔ off % 4 = 0 ∧ off ≤ 0xFFC := by
  simp [ScriptReg.wellFormed]

/-- A well-formed offset fits the ten bits of IDX. -/
theorem scriptIndex_offset (off : Nat) (h : (ScriptReg.offset off).wellFormed = true) :
    (scriptIndex (.offset off)).toNat = off / 4 := by
  have hle := ((scriptOffset_wellFormed_iff off).1 h).2
  exact (BitVec.toNat_ofNat _ _).trans (Nat.mod_eq_of_lt (by omega))

theorem lineWr_eq (x : ScriptReg) (v : Word) :
    lineWr x v = .bus (BitVec.ofNat 64 (2 ^ 63 + (scriptIndex x).toNat * 2 ^ 32 + v.toNat)) :=
  congrArg Line.bus (packetOf_regWrite _ v)

theorem lineRd_eq (x : ScriptReg) : lineRd x = .bus (BitVec.ofNat 64 ((scriptIndex x).toNat * 2 ^ 32)) :=
  congrArg Line.bus (packetOf_regRead _)

/-- Settles O7: each line by its packet's number, with the index its operand stands for. -/
theorem scriptLinesSpellTheirPackets : Obligations.ScriptLinesSpellTheirPackets := by
  refine ⟨fun x v => ?wr, fun x => ?rd, fun off v hoff => ⟨?wrAt, ?rdAt⟩, scriptOffset_wellFormed_iff,
    fun _ _ => rfl, fun x m v => ?poll, fun _ _ _ _ => rfl, fun i w hi => ?cmd, ?run, rfl⟩
  case wr => rw [lineWr_eq, scriptIndex_name]
  case rd => rw [lineRd_eq, scriptIndex_name]
  case wrAt => rw [lineWr_eq, scriptIndex_offset off hoff]
  case rdAt => rw [lineRd_eq, scriptIndex_offset off hoff]
  case poll => rw [ofNat_mapOffset]; rfl
  case cmd => rw [lineCmd, hi, commandWordOf, lineWr_eq, scriptIndex_name]; rfl
  case run => rw [lineCmd, lineWr_eq]; rfl

end Sys2Proof.Machine
end

section
/-! Writes while idle: of a configuration register, of STATUS, and of an offset that no host write changes (R20,
R240). -/

namespace Sys2Proof.Machine

open Sys2Proof.Claims

/-! ## Which write it is -/

theorem exec_regWrite_of_idle (s : State) (idx : BitVec 10) (data : Word) (h : stBit s 0 = false) :
    exec (.regWrite idx data) s = .next (writeIdle idx data s) := by
  have hidle : s.flag .busy = false := h
  rw [exec_regWrite, hidle, if_neg Bool.false_ne_true]

theorem exec_regWrite_of_busy (s : State) (idx : BitVec 10) (data : Word) (h : stBit s 0 = true) :
    exec (.regWrite idx data) s = .next (writeBusy idx data s) := by
  have hbusy : s.flag .busy = true := h
  rw [exec_regWrite, hbusy, if_pos rfl]

theorem writeIdle_of_none (s : State) (idx : BitVec 10) (data : Word) (h : regAt idx = none) :
    writeIdle idx data s = s := by
  rw [writeIdle, h]

theorem writeIdle_status (s : State) (idx : BitVec 10) (data : Word) (h : regAt idx = some .status) :
    writeIdle idx data s = writeStatus data s := by
  rw [writeIdle, h]

theorem writeIdle_cmd (s : State) (idx : BitVec 10) (data : Word) (h : regAt idx = some .cmd) :
    writeIdle idx data s = issueCommand data s := by
  rw [writeIdle, h]

/-- A write of any register but CMD and STATUS is `writeConfig` (R240). -/
theorem writeIdle_of_config (s : State) (x : Reg) (idx : BitVec 10) (data : Word) (h : regAt idx = some x)
    (hcmd : x ≠ .cmd) (hst : x ≠ .status) : writeIdle idx data s = s.setRegs (s.regs.writeConfig data x) := by
  rw [writeIdle, h]
  cases x with
  | cmd => exact absurd rfl hcmd
  | status => exact absurd rfl hst
  | _ => rfl

/-- All that a write while idle can be. -/
theorem writeIdle_cases (s : State) (idx : BitVec 10) (data : Word) :
    writeIdle idx data s = s ∨ writeIdle idx data s = issueCommand data s
      ∨ writeIdle idx data s = writeStatus data s
      ∨ ∃ x, writeIdle idx data s = s.setRegs (s.regs.writeConfig data x) := by
  cases hx : regAt idx with
  | none => exact .inl (writeIdle_of_none s idx data hx)
  | some x =>
    by_cases hcmd : x = .cmd
    · exact .inr (.inl (writeIdle_cmd s idx data (hcmd ▸ hx)))
    · by_cases hst : x = .status
      · exact .inr (.inr (.inl (writeIdle_status s idx data (hst ▸ hx))))
      · exact .inr (.inr (.inr ⟨x, writeIdle_of_config s x idx data hx hcmd hst⟩))

/-! ## Configuration registers -/

/-- A configuration write changes no register but the one it names (R240). -/
theorem Regs.get_writeConfig_of_ne (r : Regs) (data : Word) (x y : Reg) (h : y ≠ x) :
    (r.writeConfig data x).get y = r.get y := by
  cases x with
  | planeBase c =>
    cases y with
    | planeBase d => revert h; fin_cases c <;> fin_cases d <;> simp [Regs.writeConfig, Regs.get, Regs.planeBase]
    | _ => fin_cases c <;> rfl
  | ctrl => cases y with | ctrl => exact absurd rfl h | _ => rfl
  | blackLevel => cases y with | blackLevel => exact absurd rfl h | _ => rfl
  | srcBase => cases y with | srcBase => exact absurd rfl h | _ => rfl
  | srcLen => cases y with | srcLen => exact absurd rfl h | _ => rfl
  | hdrOff => cases y with | hdrOff => exact absurd rfl h | _ => rfl
  | pixOff => cases y with | pixOff => exact absurd rfl h | _ => rfl
  | fmtCodes => cases y with | fmtCodes => exact absurd rfl h | _ => rfl
  | orderCodes => cases y with | orderCodes => exact absurd rfl h | _ => rfl
  | gtBase => cases y with | gtBase => exact absurd rfl h | _ => rfl
  | _ => rfl

/-- A register of one 32-bit field takes the whole word (R29 to R32, R34 to R36). -/
theorem Regs.get_writeConfig_of_whole (r : Regs) (data : Word) (x : Reg) (h : wholeWritten x) :
    (r.writeConfig data x).get x = data := by
  rcases h with ⟨c, rfl⟩ | h
  · fin_cases c <;> rfl
  · cases x with
    | srcBase | srcLen | hdrOff | pixOff | orderCodes | gtBase => rfl
    | _ => simp at h

theorem whole_ne_cmd_and_ne_status (x : Reg) (h : wholeWritten x) : x ≠ .cmd ∧ x ≠ .status := by
  constructor <;> rintro rfl <;> simp [wholeWritten] at h

/-- A configuration write while idle, with its frame. -/
theorem exec_regWrite_config (s : State) (x : Reg) (idx : BitVec 10) (data : Word) (hidle : stBit s 0 = false)
    (hx : mapOffset x = idx.toNat * 4) (hcmd : x ≠ .cmd) (hst : x ≠ .status) :
    exec (.regWrite idx data) s = .next (s.setRegs (s.regs.writeConfig data x)) := by
  rw [exec_regWrite_of_idle s idx data hidle, writeIdle_of_config s x idx data (regAt_of_mapOffset x idx hx) hcmd hst]

/-- Settles O13: the write is `writeConfig`, which stores the word and keeps every other register. -/
theorem idleWriteStoresWholeRegister : Obligations.IdleWriteStoresWholeRegister := by
  intro s x idx data hidle hx hidx
  obtain ⟨hcmd, hst⟩ := whole_ne_cmd_and_ne_status x hx
  exact ⟨_, exec_regWrite_config s x idx data hidle hidx.symm hcmd hst, s.regs.get_writeConfig_of_whole data x hx, rfl,
    s.regs.get_writeConfig_of_ne data x⟩

/-! ## Registers of several fields -/

/-- CTRL after a write: the two enables and a legal mode, bits [31:4] kept (R23). -/
theorem writeConfig_ctrl_fields (r : Regs) (data : Word) :
    (r.writeConfig data .ctrl).ctrl.extractLsb' 0 2 = data.extractLsb' 0 2
      ∧ (r.writeConfig data .ctrl).ctrl.extractLsb' 2 2 = legalMode (data.extractLsb' 2 2)
      ∧ (r.writeConfig data .ctrl).ctrl.extractLsb' 4 28 = r.ctrl.extractLsb' 4 28 :=
  ⟨BitVec.extractLsb'_append_eq_right,
    (BitVec.extractLsb'_append_eq_of_le (by decide)).trans BitVec.extractLsb'_append_eq_right,
    (BitVec.extractLsb'_append_eq_of_le (by decide)).trans BitVec.extractLsb'_append_eq_left⟩

/-- BLACK_LEVEL after a write: BL, bits [31:10] kept (R28). -/
theorem writeConfig_blackLevel_fields (r : Regs) (data : Word) :
    (r.writeConfig data .blackLevel).blackLevel.extractLsb' 0 10 = data.extractLsb' 0 10
      ∧ (r.writeConfig data .blackLevel).blackLevel.extractLsb' 10 22 = r.blackLevel.extractLsb' 10 22 :=
  ⟨BitVec.extractLsb'_append_eq_right, BitVec.extractLsb'_append_eq_left⟩

/-- FMT_CODES after a write: its codes, bits [31:24] kept (R33). -/
theorem writeConfig_fmtCodes_fields (r : Regs) (data : Word) :
    (r.writeConfig data .fmtCodes).fmtCodes.extractLsb' 0 24 = data.extractLsb' 0 24
      ∧ (r.writeConfig data .fmtCodes).fmtCodes.extractLsb' 24 8 = r.fmtCodes.extractLsb' 24 8 :=
  ⟨BitVec.extractLsb'_append_eq_right, BitVec.extractLsb'_append_eq_left⟩

/-- Settles O14: the write is `writeConfig`, field by field. -/
theorem idleWriteStoresFields : Obligations.IdleWriteStoresFields := by
  intro s data hidle
  refine ⟨⟨_, exec_regWrite_config s .ctrl _ data hidle rfl (by decide) (by decide), rfl, ?_, ?_⟩,
    ⟨_, exec_regWrite_config s .blackLevel _ data hidle rfl (by decide) (by decide), rfl, ?_, ?_⟩,
    ⟨_, exec_regWrite_config s .fmtCodes _ data hidle rfl (by decide) (by decide), rfl, ?_, ?_⟩⟩
  · exact s.regs.get_writeConfig_of_ne data .ctrl
  · exact writeConfig_ctrl_fields s.regs data
  · exact s.regs.get_writeConfig_of_ne data .blackLevel
  · exact writeConfig_blackLevel_fields s.regs data
  · exact s.regs.get_writeConfig_of_ne data .fmtCodes
  · exact writeConfig_fmtCodes_fields s.regs data

/-! ## Offsets that no host write changes -/

/-- ID, ERRCODE and the registers from offset 0x080 upward are read-only (R21). -/
theorem writeConfig_of_readOnly (r : Regs) (data : Word) (x : Reg)
    (h : mapOffset x = 0x000 ∨ mapOffset x = 0x010 ∨ 0x044 ≤ mapOffset x) :
    r.writeConfig data x = r ∧ x ≠ .cmd ∧ x ≠ .status := by
  cases x with
  | planeBase c => simp only [mapOffset] at h; omega
  | ctrl | cmd | status | blackLevel | srcBase | srcLen | hdrOff | pixOff | fmtCodes | orderCodes | gtBase =>
    simp [mapOffset] at h
  | _ => exact ⟨rfl, by simp, by simp⟩

/-- Settles O15: no register stands at the offset, or a read-only one. -/
theorem idleWriteElsewhereIsIgnored : Obligations.IdleWriteElsewhereIsIgnored := by
  intro s idx data hidle hoff
  rw [exec_regWrite_of_idle s idx data hidle]
  cases hx : regAt idx with
  | none => rw [writeIdle_of_none s idx data hx]
  | some x =>
    rw [← (regIndex_eq_iff x idx).1 (regAt_some idx x hx)] at hoff
    obtain ⟨hkeep, hcmd, hst⟩ := writeConfig_of_readOnly s.regs data x hoff
    rw [writeIdle_of_config s x idx data hx hcmd hst, hkeep]
    rfl

/-! ## STATUS -/

/-- The write-one-to-clear bits of STATUS (R25). -/
theorem w1cMask_bit (i : Nat) : w1cMask.getLsbD i = decide (i = 1 ∨ i = 2 ∨ i = 6 ∨ i = 7 ∨ i = 8) := by
  have hword : ∀ i : Fin 32,
      w1cMask.getLsbD i = decide (i.val = 1 ∨ i.val = 2 ∨ i.val = 6 ∨ i.val = 7 ∨ i.val = 8) := by decide
  by_cases hi : i < 32
  · exact hword ⟨i, hi⟩
  · rw [BitVec.getLsbD_of_ge _ _ (by omega), eq_comm, decide_eq_false_iff_not]; omega

theorem writeStatus_eq (data : Word) (s : State) :
    writeStatus data s = s.setRegs ((s.regs.setStatus (statusAfterWrite s.regs.status data)).setErrcode
      (if data.getLsbD 2 = true then 0#32 else s.regs.errcode)) := by
  unfold writeStatus
  by_cases herr : data.getLsbD 2 = true
  · simp only [flagBit, herr, if_true]; rfl
  · simp only [flagBit, herr]; rfl

/-- Every bit of STATUS after a write of STATUS (R240). -/
theorem writeStatus_bit (data : Word) (s : State) (i : Nat) :
    stBit (writeStatus data s) i
      = if (i = 1 ∨ i = 2 ∨ i = 6 ∨ i = 7 ∨ i = 8) ∧ data.getLsbD i = true then false else stBit s i := by
  rw [stBit, writeStatus_eq, State.setRegs_regs, Regs.setErrcode_status, Regs.setStatus_status,
    getLsbD_statusAfterWrite, w1cMask_bit]
  split_ifs with h
  · simp [h]
  · rw [not_and_or] at h
    rcases h with h | h <;> simp [h, stBit]

/-- Settles O16: the write of STATUS, by its equation and its bits. -/
theorem statusWriteClearsFlags : Obligations.StatusWriteClearsFlags := by
  intro s data hidle
  refine ⟨writeStatus data s, ?exec, ?frame, writeStatus_bit data s, ?errcode⟩
  case exec =>
    rw [exec_regWrite_of_idle s _ data hidle, writeIdle_status s _ data (regAt_of_mapOffset .status 3#10 rfl)]
  case frame => rw [onlyStatusErrcode, writeStatus_eq]; rfl
  case errcode => rw [writeStatus_eq]; rfl

end Sys2Proof.Machine
end

section
/-! Writes while busy (R26), and the reset (R245, R263, R300). -/

namespace Sys2Proof.Machine

open Sys2Proof.Claims

/-- CMD stands at word index 2 alone. -/
theorem regAt_eq_cmd_iff (idx : BitVec 10) : regAt idx = some .cmd ↔ idx = 2#10 :=
  ⟨fun h => (regAt_some idx .cmd h).symm, fun h => h ▸ regAt_regIndex .cmd⟩

theorem writeBusy_softReset (s : State) : writeBusy 2#10 0x0000000F#32 s = resetBlock s :=
  if_pos ⟨(regAt_eq_cmd_iff 2#10).2 rfl, rfl⟩

theorem writeBusy_of_ne (s : State) (idx : BitVec 10) (data : Word) (h : ¬ (idx = 2#10 ∧ data = 0x0000000F#32)) :
    writeBusy idx data s = s.setFlag .wbusy true :=
  if_neg (mt (And.imp_left (regAt_eq_cmd_iff idx).1) h)

/-- Settles O23: idle, the write is an issue of the word; busy, it is the one write that is performed. -/
theorem softResetWordIsPerformedAtTheWrite : Obligations.SoftResetWordIsPerformedAtTheWrite := by
  intro s
  cases hbusy : stBit s 0 with
  | false => rw [exec_regWrite_cmd_of_idle s _ hbusy, issueCommand, if_pos rfl, exec_softReset]
  | true => rw [exec_regWrite_of_busy s _ _ hbusy, writeBusy_softReset, exec_softReset]

/-- Settles O17: but for the word of SOFT_RESET, a write while busy only sets a flag. -/
theorem busyWriteOnlySetsWbusy : Obligations.BusyWriteOnlySetsWbusy := by
  intro s idx data hbusy
  refine ⟨fun hne => ⟨s.setFlag .wbusy true, ?_, rfl, s.bit_setFlag .wbusy true⟩,
    softResetWordIsPerformedAtTheWrite s⟩
  rw [exec_regWrite_of_busy s idx data hbusy, writeBusy_of_ne s idx data hne]

/-- Settles O21: the reset values field by field; FMT_CODES is its OPEN parameter under eight zero bits. -/
theorem resetLeavesResetValues : Obligations.ResetLeavesResetValues := by
  have hcodes : Regs.reset.fmtCodes.extractLsb' 0 24 = Config.resetFmtCodes := BitVec.extractLsb'_append_eq_right
  have hreserved : Regs.reset.fmtCodes.extractLsb' 24 8 = 0#8 := BitVec.extractLsb'_append_eq_left
  have hplanes : ∀ c, Regs.reset.planeBase c = 0#32 ∧ Regs.reset.middle c = 0#32 := by
    intro c; fin_cases c <;> exact ⟨rfl, rfl⟩
  have hnames : ∀ i, Regs.reset.hdrName i = 0#32 := by
    intro i; fin_cases i <;> rfl
  exact ⟨rfl, rfl, rfl, rfl, rfl, rfl, rfl, rfl, rfl, hcodes, hreserved, rfl, rfl, hplanes, hnames, rfl, rfl, rfl, rfl,
    rfl, rfl, rfl, rfl, rfl, by decide⟩

/-- Settles O22: `resetBlock_spec`, and `resetBlock_idle` while idle. -/
theorem softResetResetsTheBlock : Obligations.SoftResetResetsTheBlock := by
  intro s
  obtain ⟨hregs, hpending, hscript, hline, hschedule, hread, hload, hmem⟩ := resetBlock_spec s
  exact ⟨resetBlock s, exec_softReset s, hregs, hpending, resetBlock_idle s, hmem, hscript, hline, hschedule, hread,
    hload⟩

end Sys2Proof.Machine
end

section
/-! Reads (R47, R241). -/

namespace Sys2Proof.Machine

open Sys2Proof.Claims

theorem exec_regRead (s : State) (idx : BitVec 10) :
    exec (.regRead idx) s =
      if s.readIsDraw idx then .next (drawReadData s) else .next (s.setReadData (s.regs.readAt idx)) := rfl

theorem readAt_of_mapOffset (r : Regs) (x : Reg) (idx : BitVec 10) (h : mapOffset x = idx.toNat * 4) :
    r.readAt idx = r.get x := by
  rw [Regs.readAt, regAt_of_mapOffset x idx h]

theorem readAt_of_no_mapOffset (r : Regs) (idx : BitVec 10) (h : ∀ x, mapOffset x ≠ idx.toNat * 4) :
    r.readAt idx = 0#32 := by
  rw [Regs.readAt, regAt_of_no_mapOffset idx h]

theorem readIsDraw_idle (s : State) (idx : BitVec 10) (h : s.flag .busy = false) : s.readIsDraw idx = false := by
  rw [State.readIsDraw, runningCommand_idle s h]

/-- A read that draws is one of a register that the command in progress leaves open. -/
theorem readIsDraw_iff (s : State) (idx : BitVec 10) :
    s.readIsDraw idx = true
      ↔ ∃ i x, s.runningCommand = some i ∧ regAt idx = some x ∧ readUnspecified i x = true := by
  unfold State.readIsDraw
  cases s.runningCommand <;> cases regAt idx <;> simp

/-- Settles O18: nothing is in progress while idle, so that the read returns the value at its index. -/
theorem idleReadReturnsTheValue : Obligations.IdleReadReturnsTheValue := by
  intro s idx hidle
  refine ⟨s.setReadData (s.regs.readAt idx), ?exec, rfl, fun x hx => readAt_of_mapOffset s.regs x idx hx, rfl,
    readAt_of_no_mapOffset s.regs idx⟩
  case exec => rw [exec_regRead, readIsDraw_idle s idx hidle, if_neg Bool.false_ne_true]

/-- The registers PARSE leaves open to a read are those it may write (R47). -/
theorem latchedReg_iff (x : Reg) : latchedReg x = true ↔ parseMayWrite x := by
  cases x <;> simp [latchedReg, parseMayWrite]

theorem middleReg_iff (x : Reg) : middleReg x = true ↔ ∃ c, x = .middle c := by
  cases x <;> simp [middleReg]

/-- Which reads are open while a command word is in progress (R47). -/
theorem readUnspecified_decodeCommand (w : Word) (x : Reg) (h : readUnspecified (decodeCommand w) x = true) :
    ((w = 1#32 ∨ w = 4#32) ∧ parseMayWrite x) ∨ ((w = 3#32 ∨ w = 4#32) ∧ ∃ c, x = .middle c) := by
  obtain ⟨hparse, -, hsample, hrun, -⟩ := decodeCommand_iff w
  rw [← hparse, ← hsample, ← hrun, ← latchedReg_iff, ← middleReg_iff]
  cases hi : decodeCommand w with
  | parse => rw [hi] at h; exact .inl ⟨.inl rfl, h⟩
  | sample => rw [hi] at h; exact .inr ⟨.inl rfl, h⟩
  | run =>
    rw [hi] at h
    exact (Bool.or_eq_true _ _ ▸ h).imp (⟨.inr rfl, ·⟩) (⟨.inr rfl, ·⟩)
  | _ => rw [hi] at h; cases h

theorem runningCommand_busy (s : State) (w : Word) (h : s.flag .busy = true) (hw : s.pending = some w) :
    s.runningCommand = some (decodeCommand w) := by
  rw [State.runningCommand, h, hw]; rfl

/-- Settles O19: a read that draws is open by R47; every other returns the value and draws nothing. -/
theorem busyReadReturnsValueWhereSpecified : Obligations.BusyReadReturnsValueWhereSpecified := by
  intro s w idx hbusy hw
  cases hdraw : s.readIsDraw idx with
  | false =>
    refine ⟨s.setReadData (s.regs.readAt idx), ?_, rfl, fun x hx _ _ => ⟨readAt_of_mapOffset s.regs x idx hx, rfl⟩,
      fun hx => ⟨readAt_of_no_mapOffset s.regs idx hx, rfl⟩⟩
    rw [exec_regRead, hdraw, if_neg Bool.false_ne_true]
  | true =>
    obtain ⟨i, y, hi, hy, hopen⟩ := (readIsDraw_iff s idx).1 hdraw
    have hyoff : mapOffset y = idx.toNat * 4 := (regIndex_eq_iff y idx).1 (regAt_some idx y hy)
    refine ⟨drawReadData s, ?_, rfl, fun x hx hparse hsample => ?_, fun hx => absurd hyoff (hx y)⟩
    · rw [exec_regRead, hdraw, if_pos rfl]
    · obtain rfl : y = x := Option.some.inj (hy.symm.trans (regAt_of_mapOffset x idx hx))
      obtain rfl : decodeCommand w = i := Option.some.inj ((runningCommand_busy s w hbusy hw).symm.trans hi)
      exact ((readUnspecified_decodeCommand w y hopen).elim hparse hsample).elim

end Sys2Proof.Machine
end

section
/-! The commands as phases: what the completion step of each works on, and how a phase can end (R244, R270). -/

namespace Sys2Proof.Machine

open Sys2Proof.Claims

/-- The phase ends in the state `u`, well or with an error. -/
def PhaseResult.endsIn (r : PhaseResult) (u : State) : Prop := r = .ok u ∨ ∃ code, r = .error u code

theorem PhaseResult.endsIn_ok (s u : State) : (PhaseResult.ok s).endsIn u ↔ s = u := by
  simp [PhaseResult.endsIn]

theorem PhaseResult.endsIn_error (s u : State) (code : ErrCode) : (PhaseResult.error s code).endsIn u ↔ s = u := by
  simp [PhaseResult.endsIn]

theorem PhaseResult.not_endsIn_fault (why : Fault) (u : State) : ¬ (PhaseResult.fault why).endsIn u := by
  simp [PhaseResult.endsIn]

/-- What the phases of a command end in; `exec_command` ties it to `exec`. -/
def commandResult (i : Instr) (s : State) : PhaseResult :=
  match i with
  | .nop => .ok s
  | .parse => parsePhase s
  | .unpack => unpackPhase s
  | .sample => samplePhase s
  | .run => (runPhases s).2
  | .illegalOpcode _ => .error s .illegal
  | .illegalBits _ _ => .error s .illegal
  | .softReset => .ok s
  | .regWrite _ _ => .ok s
  | .regRead _ => .ok s

/-- The completion step of a command completes the result of its phases (R270). -/
theorem exec_command (i : Instr) (s : State) (hi : isPhaseCommand i) :
    ∃ issued phase, exec i s = complete issued phase (commandResult i s) := by
  cases i with
  | softReset | regWrite | regRead => exact hi.elim
  | nop => exact ⟨0#4, 0#4, rfl⟩
  | parse => exact ⟨1#4, 1#4, rfl⟩
  | unpack => exact ⟨2#4, 2#4, rfl⟩
  | sample => exact ⟨3#4, 3#4, rfl⟩
  | run => exact ⟨4#4, (runPhases s).1, rfl⟩
  | illegalOpcode op | illegalBits _ op => exact ⟨op, op, rfl⟩

/-- The state that the phases of a completing command end in, and its completion. -/
theorem exec_command_cases (i : Instr) (s t : State) (hi : isPhaseCommand i) (h : exec i s = .next t) :
    ∃ u, (commandResult i s).endsIn u
      ∧ (t = completeOk u ∨ ∃ issued phase code, t = completeError issued phase code u) := by
  obtain ⟨issued, phase, hexec⟩ := exec_command i s hi
  rcases complete_cases issued phase _ t (hexec.symm.trans h) with ⟨u, hu, ht⟩ | ⟨u, code, hu, ht⟩
  · exact ⟨u, .inl hu, .inl ht⟩
  · exact ⟨u, .inr ⟨code, hu⟩, .inr ⟨issued, phase, code, ht⟩⟩

/-- PARSE ends in the state it began in, latched or not, with or without HDR_VALID. -/
theorem parsePhase_endsIn (s u : State) (h : (parsePhase s).endsIn u) :
    u = s ∨ u = s.latchHeader ∨ (parsePostcheck s.latchHeader = none ∧ u = s.latchHeader.setFlag .hdrValid true) := by
  rcases parsePhase_cases s with ⟨code, -, hp⟩ | ⟨code, -, -, hp⟩ | ⟨-, hpost, hp⟩ <;> rw [hp] at h
  · exact .inl ((PhaseResult.endsIn_error _ _ _).1 h).symm
  · exact .inr (.inl ((PhaseResult.endsIn_error _ _ _).1 h).symm)
  · exact .inr (.inr ⟨hpost, ((PhaseResult.endsIn_ok _ _).1 h).symm⟩)

/-- UNPACK ends in the state it began in, or with its effects. -/
theorem unpackPhase_endsIn (s u : State) (h : (unpackPhase s).endsIn u) :
    u = s ∨ (unpackCheck s = none ∧ u = unpackEffects s) := by
  rcases unpackPhase_cases s with ⟨code, -, hp⟩ | ⟨-, -, hp⟩ | ⟨hcheck, -, hp⟩ <;> rw [hp] at h
  · exact .inl ((PhaseResult.endsIn_error _ _ _).1 h).symm
  · exact (PhaseResult.not_endsIn_fault _ _ h).elim
  · exact .inr ⟨hcheck, ((PhaseResult.endsIn_ok _ _).1 h).symm⟩

/-- SAMPLE ends in the state it began in, or with its effects. -/
theorem samplePhase_endsIn (s u : State) (h : (samplePhase s).endsIn u) :
    u = s ∨ (sampleCheck s = none ∧ u = sampleEffects s) := by
  rcases samplePhase_cases s with ⟨code, -, hp⟩ | ⟨-, -, hp⟩ | ⟨hcheck, -, hp⟩ <;> rw [hp] at h
  · exact .inl ((PhaseResult.endsIn_error _ _ _).1 h).symm
  · exact (PhaseResult.not_endsIn_fault _ _ h).elim
  · exact .inr ⟨hcheck, ((PhaseResult.endsIn_ok _ _).1 h).symm⟩

/-- PARSE gives every state a meaning. -/
theorem parsePhase_ne_fault (s : State) (why : Fault) : parsePhase s ≠ .fault why := by
  rcases parsePhase_cases s with ⟨_, -, hp⟩ | ⟨_, -, -, hp⟩ | ⟨-, -, hp⟩ <;> rw [hp] <;> exact PhaseResult.noConfusion

/-- The phases of a RUN, by the first that does not succeed (R244). -/
theorem runPhases_of_parse_error (s u : State) (code : ErrCode) (h : parsePhase s = .error u code) :
    runPhases s = (1#4, .error u code) := by
  rw [runPhases, h]

theorem runPhases_of_unpack_error (s s1 u : State) (code : ErrCode) (h1 : parsePhase s = .ok s1)
    (h2 : unpackPhase s1 = .error u code) : runPhases s = (2#4, .error u code) := by
  rw [runPhases, h1]; dsimp only; rw [h2]

theorem runPhases_of_unpack_fault (s s1 : State) (why : Fault) (h1 : parsePhase s = .ok s1)
    (h2 : unpackPhase s1 = .fault why) : runPhases s = (2#4, .fault why) := by
  rw [runPhases, h1]; dsimp only; rw [h2]

theorem runPhases_of_unpack_ok (s s1 s2 : State) (h1 : parsePhase s = .ok s1) (h2 : unpackPhase s1 = .ok s2) :
    runPhases s = (3#4, samplePhase s2) := by
  rw [runPhases, h1]; dsimp only; rw [h2]

/-- Where RUN ends: in PARSE, in UNPACK after it, or in SAMPLE after both (R244). -/
theorem runPhases_cases (s : State) :
    (∃ u code, parsePhase s = .error u code ∧ runPhases s = (1#4, .error u code))
      ∨ ∃ s1, parsePhase s = .ok s1
          ∧ ((∃ u code, unpackPhase s1 = .error u code ∧ runPhases s = (2#4, .error u code))
            ∨ (∃ why, unpackPhase s1 = .fault why ∧ runPhases s = (2#4, .fault why))
            ∨ ∃ s2, unpackPhase s1 = .ok s2 ∧ runPhases s = (3#4, samplePhase s2)) := by
  cases h1 : parsePhase s with
  | error u code => exact .inl ⟨u, code, rfl, runPhases_of_parse_error s u code h1⟩
  | fault why => exact (parsePhase_ne_fault s why h1).elim
  | ok s1 =>
    refine .inr ⟨s1, rfl, ?_⟩
    cases h2 : unpackPhase s1 with
    | error u code => exact .inl ⟨u, code, rfl, runPhases_of_unpack_error s s1 u code h1 h2⟩
    | fault why => exact .inr (.inl ⟨why, rfl, runPhases_of_unpack_fault s s1 why h1 h2⟩)
    | ok s2 => exact .inr (.inr ⟨s2, rfl, runPhases_of_unpack_ok s s1 s2 h1 h2⟩)

/-- The state RUN ends in, by the phases it went through. -/
theorem runPhases_endsIn (s u : State) (h : (runPhases s).2.endsIn u) :
    (parsePhase s).endsIn u
      ∨ ∃ s1, parsePhase s = .ok s1
          ∧ ((unpackPhase s1).endsIn u ∨ ∃ s2, unpackPhase s1 = .ok s2 ∧ (samplePhase s2).endsIn u) := by
  rcases runPhases_cases s with ⟨v, code, h1, hr⟩ | ⟨s1, h1, ⟨v, code, h2, hr⟩ | ⟨why, h2, hr⟩ | ⟨s2, h2, hr⟩⟩ <;>
    rw [hr] at h
  · exact .inl (h1 ▸ h)
  · exact .inr ⟨s1, h1, .inl (h2 ▸ h)⟩
  · exact .inr ⟨s1, h1, .inl (h2 ▸ h)⟩
  · exact .inr ⟨s1, h1, .inr ⟨s2, h2, h⟩⟩

end Sys2Proof.Machine
end

section
/-! What every command keeps: configuration, CUR_OP, the sticky flags, the pending word and the host's own state (R25,
R26, R270, R309). -/

namespace Sys2Proof.Machine

open Sys2Proof.Claims

/-- The host's own fields are as before (R48, R50, R248). -/
structure HostKept (s t : State) : Prop where
  script : t.script = s.script
  line : t.line = s.line
  schedule : t.schedule = s.schedule
  loadData : t.loadData = s.loadData

theorem HostKept.trans {s t u : State} (h : HostKept s t) (h' : HostKept t u) : HostKept s u :=
  ⟨h'.script.trans h.script, h'.line.trans h.line, h'.schedule.trans h.schedule, h'.loadData.trans h.loadData⟩

/-- What no phase and no completion changes: the configuration registers, the bits of STATUS from 8 upward (WBUSY,
CUR_OP and the reserved bits), a sticky flag once set, the pending word and the host's own state. -/
structure CommandKept (s t : State) : Prop where
  config : ∀ x, x ∈ [Reg.ctrl, .blackLevel, .fmtCodes] ∨ wholeWritten x → t.regs.get x = s.regs.get x
  status : ∀ i, 8 ≤ i → stBit t i = stBit s i
  uflow : stBit s 6 = true → stBit t 6 = true
  div0 : stBit s 7 = true → stBit t 7 = true
  pending : t.pending = s.pending
  host : HostKept s t

theorem CommandKept.refl (s : State) : CommandKept s s :=
  ⟨fun _ _ => rfl, fun _ _ => rfl, id, id, rfl, rfl, rfl, rfl, rfl⟩

theorem CommandKept.trans {s t u : State} (h : CommandKept s t) (h' : CommandKept t u) : CommandKept s u :=
  ⟨fun x hx => (h'.config x hx).trans (h.config x hx), fun i hi => (h'.status i hi).trans (h.status i hi),
    h'.uflow ∘ h.uflow, h'.div0 ∘ h.div0, h'.pending.trans h.pending, h.host.trans h'.host⟩

/-- Writing a flag below WBUSY keeps all that; a sticky one is only set, never cleared. -/
theorem commandKept_setFlag (s : State) (f : Flag) (b : Bool) (hf : f ≠ .wbusy)
    (hsticky : f = .uflow ∨ f = .div0 → s.flag f = true → b = true) : CommandKept s (s.setFlag f b) := by
  have hlt : flagBit f < 8 := by cases f <;> simp [flagBit] at hf ⊢
  have hset : ∀ g : Flag, g = .uflow ∨ g = .div0 → s.flag g = true → (s.setFlag f b).flag g = true := by
    intro g hg hs
    rw [State.flag_setFlag]
    split_ifs with hgf
    · exact hsticky (hgf ▸ hg) (hgf ▸ hs)
    · exact hs
  refine ⟨fun x hx => State.get_setFlag s f b x ?_, fun i hi => ?_, hset .uflow (.inl rfl), hset .div0 (.inr rfl),
    rfl, rfl, rfl, rfl, rfl⟩
  · rintro rfl; simp [wholeWritten] at hx
  · rw [stBit, State.bit_setFlag, if_neg (by omega)]; rfl

theorem commandKept_setErrcode (s : State) (v : Word) : CommandKept s (s.setErrcode v) := by
  refine ⟨fun x hx => Regs.get_setErrcode s.regs v x ?_, fun _ _ => rfl, id, id, rfl, rfl, rfl, rfl, rfl⟩
  rintro rfl; simp [wholeWritten] at hx

theorem commandKept_completeOk (s : State) : CommandKept s (completeOk s) :=
  (commandKept_setFlag s .done true (by decide) fun _ _ => rfl).trans
    (commandKept_setFlag _ .busy false (by decide) (by simp))

theorem commandKept_completeError (issued phase : BitVec 4) (code : ErrCode) (s : State) :
    CommandKept s (completeError issued phase code s) :=
  (commandKept_setErrcode s _).trans ((commandKept_setFlag _ .err true (by decide) fun _ _ => rfl).trans
    (commandKept_setFlag _ .busy false (by decide) (by simp)))

theorem commandKept_latchHeader (s : State) : CommandKept s s.latchHeader := by
  refine ⟨fun x hx => s.latchedRegs_get x ?_, fun _ _ => rfl, id, id, rfl, rfl, rfl, rfl, rfl⟩
  rintro (⟨i, rfl⟩ | hlatched)
  · simp [wholeWritten] at hx
  · cases x <;> simp [wholeWritten] at hx hlatched

theorem commandKept_setMem (s : State) (m : Memory) : CommandKept s (s.setMem m) :=
  ⟨fun _ _ => rfl, fun _ _ => rfl, id, id, rfl, rfl, rfl, rfl, rfl⟩

theorem commandKept_unpackEffects (s : State) : CommandKept s (unpackEffects s) := by
  refine (commandKept_setMem s _).trans ((commandKept_setFlag _ .uflow _ (by decide) fun _ hs => ?_).trans
    (commandKept_setFlag _ .planesValid true (by decide) fun _ _ => rfl))
  exact Bool.or_eq_true _ _ ▸ .inl hs

theorem commandKept_sampleEffects (s : State) : CommandKept s (sampleEffects s) := by
  have hmiddle : CommandKept s (s.setRegs s.middleRegs) := by
    refine ⟨fun x hx => State.middleRegs_get s x ?_, fun _ _ => rfl, id, id, rfl, rfl, rfl, rfl, rfl⟩
    rintro c rfl; simp [wholeWritten] at hx
  refine (hmiddle.trans (commandKept_setMem _ _)).trans ((commandKept_setFlag _ .div0 _ (by decide) fun _ hs => ?_).trans
    (commandKept_setFlag _ .gridValid true (by decide) fun _ _ => rfl))
  exact Bool.or_eq_true _ _ ▸ .inl hs

theorem parsePhase_kept (s u : State) (h : (parsePhase s).endsIn u) : CommandKept s u := by
  rcases parsePhase_endsIn s u h with rfl | rfl | ⟨-, rfl⟩
  · exact .refl _
  · exact commandKept_latchHeader s
  · exact (commandKept_latchHeader s).trans (commandKept_setFlag _ .hdrValid true (by decide) fun _ _ => rfl)

theorem unpackPhase_kept (s u : State) (h : (unpackPhase s).endsIn u) : CommandKept s u := by
  rcases unpackPhase_endsIn s u h with rfl | ⟨-, rfl⟩
  · exact .refl _
  · exact commandKept_unpackEffects s

theorem samplePhase_kept (s u : State) (h : (samplePhase s).endsIn u) : CommandKept s u := by
  rcases samplePhase_endsIn s u h with rfl | ⟨-, rfl⟩
  · exact .refl _
  · exact commandKept_sampleEffects s

theorem commandResult_kept (i : Instr) (s u : State) (h : (commandResult i s).endsIn u) : CommandKept s u := by
  cases i with
  | parse => exact parsePhase_kept s u h
  | unpack => exact unpackPhase_kept s u h
  | sample => exact samplePhase_kept s u h
  | run =>
    rcases runPhases_endsIn s u h with h1 | ⟨s1, h1, h2 | ⟨s2, h2, h3⟩⟩
    · exact parsePhase_kept s u h1
    · exact (parsePhase_kept s s1 (.inl h1)).trans (unpackPhase_kept s1 u h2)
    · exact (parsePhase_kept s s1 (.inl h1)).trans
        ((unpackPhase_kept s1 s2 (.inl h2)).trans (samplePhase_kept s2 u h3))
  | illegalOpcode | illegalBits => exact (PhaseResult.endsIn_error _ _ _).1 h ▸ .refl s
  | nop | softReset | regWrite | regRead => exact (PhaseResult.endsIn_ok _ _).1 h ▸ .refl s

theorem exec_command_kept (i : Instr) (s t : State) (hi : isPhaseCommand i) (h : exec i s = .next t) :
    CommandKept s t := by
  obtain ⟨u, hu, rfl | ⟨issued, phase, code, rfl⟩⟩ := exec_command_cases i s t hi h
  · exact (commandResult_kept i s u hu).trans (commandKept_completeOk u)
  · exact (commandResult_kept i s u hu).trans (commandKept_completeError issued phase code u)

/-- A field is its bits. -/
theorem extract_eq_of_bits_eq (v w : Word) (lo n : Nat)
    (h : ∀ i, lo ≤ i → i < lo + n → v.getLsbD i = w.getLsbD i) : v.extractLsb' lo n = w.extractLsb' lo n := by
  ext j hj
  rw [BitVec.getElem_extractLsb', BitVec.getElem_extractLsb', h _ (by omega) (by omega)]

/-- Settles O52: `exec_command_kept`, with CUR_OP and WBUSY among the bits of STATUS that are kept. -/
theorem commandsKeepConfiguration : Obligations.CommandsKeepConfiguration := by
  intro i s t hi h
  obtain ⟨hconfig, hstatus, huflow, hdiv0, hpending, -⟩ := exec_command_kept i s t hi h
  exact ⟨hconfig, hpending, extract_eq_of_bits_eq _ _ 12 4 fun i hi _ => hstatus i (by omega), huflow, hdiv0,
    hstatus 8 le_rfl⟩

/-! ## The host's own state -/

/-- All that a write can do, busy or idle (R26, R240, R242). -/
theorem exec_regWrite_cases (s : State) (idx : BitVec 10) (data : Word) :
    ∃ t, exec (.regWrite idx data) s = .next t
      ∧ (t = s ∨ t = resetBlock s ∨ (s.flag .busy = true ∧ t = s.setFlag .wbusy true)
        ∨ (s.flag .busy = false ∧ data ≠ 0x0000000F#32 ∧ t = acceptCommand data s)
        ∨ (s.flag .busy = false ∧ t = writeStatus data s)
        ∨ (s.flag .busy = false ∧ ∃ x, t = s.setRegs (s.regs.writeConfig data x))) := by
  cases hbusy : s.flag .busy with
  | true =>
    refine ⟨_, exec_regWrite_of_busy s idx data hbusy, ?_⟩
    by_cases hreset : idx = 2#10 ∧ data = 0x0000000F#32
    · obtain ⟨rfl, rfl⟩ := hreset
      exact .inr (.inl (writeBusy_softReset s))
    · exact .inr (.inr (.inl ⟨rfl, writeBusy_of_ne s idx data hreset⟩))
  | false =>
    refine ⟨_, exec_regWrite_of_idle s idx data hbusy, ?_⟩
    rcases writeIdle_cases s idx data with h | h | h | h
    · exact .inl h
    · by_cases hreset : data = 0x0000000F#32
      · rw [issueCommand, if_pos hreset] at h
        exact .inr (.inl h)
      · rw [issueCommand, if_neg hreset] at h
        exact .inr (.inr (.inr (.inl ⟨rfl, hreset, h⟩)))
    · exact .inr (.inr (.inr (.inr (.inl ⟨rfl, h⟩))))
    · exact .inr (.inr (.inr (.inr (.inr ⟨rfl, h⟩))))

/-- All that a read can do (R47, R241). -/
theorem exec_regRead_cases (s : State) (idx : BitVec 10) :
    ∃ t, exec (.regRead idx) s = .next t ∧ (t = drawReadData s ∨ ∃ v, t = s.setReadData v) := by
  rw [exec_regRead]
  split_ifs
  · exact ⟨_, rfl, .inl rfl⟩
  · exact ⟨_, rfl, .inr ⟨_, rfl⟩⟩

theorem resetBlock_hostKept (s : State) : HostKept s (resetBlock s) := by
  obtain ⟨-, -, hscript, hline, hschedule, -, hload, -⟩ := resetBlock_spec s
  exact ⟨hscript, hline, hschedule, hload⟩

theorem exec_regWrite_hostKept (s : State) (idx : BitVec 10) (data : Word) :
    ∃ t, exec (.regWrite idx data) s = .next t ∧ HostKept s t := by
  obtain ⟨t, hexec, ht⟩ := exec_regWrite_cases s idx data
  refine ⟨t, hexec, ?_⟩
  rcases ht with rfl | rfl | ⟨-, rfl⟩ | ⟨-, -, rfl⟩ | ⟨-, rfl⟩ | ⟨-, x, rfl⟩
  · exact ⟨rfl, rfl, rfl, rfl⟩
  · exact resetBlock_hostKept s
  · exact ⟨rfl, rfl, rfl, rfl⟩
  · rw [acceptCommand_eq]; exact ⟨rfl, rfl, rfl, rfl⟩
  · rw [writeStatus_eq]; exact ⟨rfl, rfl, rfl, rfl⟩
  · exact ⟨rfl, rfl, rfl, rfl⟩

theorem exec_regRead_hostKept (s : State) (idx : BitVec 10) :
    ∃ t, exec (.regRead idx) s = .next t ∧ HostKept s t := by
  obtain ⟨t, hexec, rfl | ⟨v, rfl⟩⟩ := exec_regRead_cases s idx
  · exact ⟨_, hexec, rfl, rfl, rfl, rfl⟩
  · exact ⟨_, hexec, rfl, rfl, rfl, rfl⟩

theorem exec_hostKept (i : Instr) (s t : State) (h : exec i s = .next t) : HostKept s t := by
  cases i with
  | softReset => exact Host.Outcome.next.inj h ▸ resetBlock_hostKept s
  | regWrite idx data =>
    obtain ⟨u, hu, hkept⟩ := exec_regWrite_hostKept s idx data
    exact Host.Outcome.next.inj (hu.symm.trans h) ▸ hkept
  | regRead idx =>
    obtain ⟨u, hu, hkept⟩ := exec_regRead_hostKept s idx
    exact Host.Outcome.next.inj (hu.symm.trans h) ▸ hkept
  | _ => exact (exec_command_kept _ s t (by trivial) h).host

/-- Settles O53: `exec_hostKept`. -/
theorem hostStateIsNotTheBlocks : Obligations.HostStateIsNotTheBlocks := by
  intro i s t h
  obtain ⟨hscript, hline, hschedule, hload⟩ := exec_hostKept i s t h
  exact ⟨hscript, hline, hschedule, hload⟩

end Sys2Proof.Machine
end

section
/-! PARSE of a valid header (R152, R153), and the geometry it leaves for UNPACK and SAMPLE. -/

namespace Sys2Proof.Machine

open Sys2Proof.Claims

/-- The machine after a successful PARSE phase: the header latched and HDR_VALID set (R152). -/
def State.parsed (s : State) : State := s.latchHeader.setFlag .hdrValid true

/-- The header passes every check of PARSE (R151). -/
def headerValid (s : State) : Prop :=
  headerReadable s ∧ formatAgrees s ∧ (∃ k, orderFound s k) ∧ geometryAgrees s

/-- The checks after the latch pass where codes, order and geometry of the header record agree. -/
theorem parsePostcheck_latchHeader_none (s : State) (hfmt : formatAgrees s) (hord : ∃ k, orderFound s k)
    (hgeom : geometryAgrees s) : parsePostcheck s.latchHeader = none := by
  have hfmt' := (formatMatches_latchHeader_iff s).2 hfmt
  have hord' := (orderMatched_latchHeader_iff s).2 hord
  have hgeom' := (geometryLegal_latchHeader_iff s).2 hgeom
  rw [parsePostcheck, if_neg (not_not.2 hfmt'), if_neg (not_not.2 hord'), if_neg (not_not.2 hgeom')]

/-- A PARSE phase succeeds exactly on a valid header. -/
theorem parsePhase_ok_iff (s s1 : State) : parsePhase s = .ok s1 ↔ headerValid s ∧ s1 = s.parsed := by
  constructor
  · intro h
    rcases parsePhase_cases s with ⟨_, -, hp⟩ | ⟨_, -, -, hp⟩ | ⟨hpre, hpost, hp⟩ <;> rw [hp] at h
    · cases h
    · cases h
    · obtain ⟨hfmt, hord, hgeom⟩ := parsePostcheck_none _ hpost
      exact ⟨⟨(parsePrecheck_none_iff s).1 hpre, (formatMatches_latchHeader_iff s).1 hfmt,
        (orderMatched_latchHeader_iff s).1 hord, (geometryLegal_latchHeader_iff s).1 hgeom⟩,
        (PhaseResult.ok.inj h).symm⟩
  · rintro ⟨⟨hread, hfmt, hord, hgeom⟩, rfl⟩
    rw [parsePhase, (parsePrecheck_none_iff s).2 hread]
    dsimp only
    rw [parsePostcheck_latchHeader_none s hfmt hord hgeom]
    rfl

theorem exec_parse_of_valid (s : State) (h : headerValid s) : exec .parse s = .next (completeOk s.parsed) := by
  rw [exec_parse, (parsePhase_ok_iff s _).2 ⟨h, rfl⟩, complete]

/-- Every bit of STATUS after a successful PARSE phase. -/
theorem parsed_bit (s : State) (i : Nat) : stBit s.parsed i = if i = 3 then true else stBit s i :=
  State.bit_setFlag _ _ _ _

/-- Settles O27: the completed phase, with the latch's own lemmas for what it holds and what it keeps. -/
theorem parseLatchesAValidHeader : Obligations.ParseLatchesAValidHeader := by
  intro s k hread hfmt hord hgeom
  refine ⟨_, exec_parse_of_valid s ⟨hread, hfmt, ⟨k, hord⟩, hgeom⟩, latchedFrom_latchHeader s, rfl, fun i => ?bits,
    fun x hst hx => ?frame⟩
  case bits =>
    rw [stBit, completeOk_bit, ← stBit, parsed_bit]
    by_cases h1 : i = 1
    · subst h1; rfl
    · by_cases h3 : i = 3
      · subst h3; rfl
      · simp only [h1, h3, or_self, if_false]
  case frame => rw [completeOk_get _ x hst, State.parsed, State.get_setFlag _ _ _ x hst]; exact s.latchedRegs_get x hx

/-! ## The geometry that PARSE leaves -/

theorem parsed_imgW (s : State) : imgW s.parsed = hdr16 s 32 :=
  (width_eq_imgW _).symm.trans ((lowHalf_append _ _).trans (headerHalf_eq_hdr16 s 32))

theorem parsed_imgH (s : State) : imgH s.parsed = hdr16 s 34 :=
  (height_eq_imgH _).symm.trans ((highHalf_append _ _).trans (headerHalf_eq_hdr16 s 34))

theorem parsed_stride (s : State) : s.parsed.regs.stride.toNat = strideValue (hdr16 s 32) (hdr16 s 36) :=
  latchedRegs_stride_toNat s

theorem parsed_chW (s : State) : chW s.parsed = hdr16 s 32 / 2 := by
  have hw := hdr16_lt s 32
  have hdim : s.parsed.regs.chDim.toNat = hdr16 s 32 / 2 + 65536 * (hdr16 s 34 / 2) := latchedRegs_chDim_toNat s
  rw [chW, hdim]; omega

theorem parsed_chH (s : State) : chH s.parsed = hdr16 s 34 / 2 := by
  have hw := hdr16_lt s 32
  have hdim : s.parsed.regs.chDim.toNat = hdr16 s 32 / 2 + 65536 * (hdr16 s 34 / 2) := latchedRegs_chDim_toNat s
  rw [chH, hdim]; omega

theorem parsed_grW (s : State) : grW s.parsed = (hdr16 s 32 / 2 + 31) / 32 := by
  have hw := hdr16_lt s 32
  have hdim : s.parsed.regs.gridDim.toNat = (hdr16 s 32 / 2 + 31) / 32 + 65536 * ((hdr16 s 34 / 2 + 31) / 32) :=
    latchedRegs_gridDim_toNat s
  rw [grW, hdim]; omega

theorem parsed_grH (s : State) : grH s.parsed = (hdr16 s 34 / 2 + 31) / 32 := by
  have hw := hdr16_lt s 32
  have hdim : s.parsed.regs.gridDim.toNat = (hdr16 s 32 / 2 + 31) / 32 + 65536 * ((hdr16 s 34 / 2 + 31) / 32) :=
    latchedRegs_gridDim_toNat s
  rw [grH, hdim]; omega

/-! ## The checks of UNPACK and SAMPLE as conditions on numbers -/

/-- UNPACK's checks pass exactly where its operands fit, on a frame of whole groups and cells. -/
theorem unpackCheck_none_iff (s : State) (hhdr : stBit s 3 = true) (hw : imgW s % 4 = 0) (hh : imgH s % 2 = 0)
    (hpos : 0 < imgH s) : unpackCheck s = none ↔ unpackFits s (imgW s) (imgH s) s.regs.stride.toNat := by
  rw [unpackCheck_eq s hpos, if_neg (ne_true_of_eq_false · hhdr), unpackFits]
  have hapart := someOverlap_planes_iff s (imgW s / 2) (imgH s / 2)
  constructor
  · intro h
    split_ifs at h with hb hsource hscan hplanes hclash
    push Not at hplanes
    exact ⟨hb, not_lt.1 hsource, hw, hh, hpos, not_lt.1 hscan, hplanes, not_not.1 (mt hapart.2 hclash)⟩
  · rintro ⟨hb, hsource, -, -, -, hscan, hplanes, hclash⟩
    rw [if_neg hb, if_neg (not_lt.2 hsource), if_neg (not_lt.2 hscan),
      if_neg (not_exists.2 fun c => not_lt.2 (hplanes c)), if_neg (mt hapart.1 (not_not.2 hclash))]

theorem unpackCheck_of_fits (s : State) (hhdr : stBit s 3 = true)
    (hfits : unpackFits s (imgW s) (imgH s) s.regs.stride.toNat) : unpackCheck s = none := by
  obtain ⟨-, -, hw, hh, hpos, -⟩ := id hfits
  exact (unpackCheck_none_iff s hhdr hw hh hpos).2 hfits

/-- SAMPLE's checks pass exactly where its operands fit, on a grid of the size R148 gives. -/
theorem sampleCheck_none_iff (s : State) (hhdr : stBit s 3 = true) (hvalid : stBit s 4 = true) (hw : 9 ≤ chW s)
    (hh : 9 ≤ chH s) (hgw : grW s = (chW s + 31) / 32) (hgh : grH s = (chH s + 31) / 32) :
    sampleCheck s = none ↔ sampleFits s (chW s) (chH s) := by
  rw [sampleCheck_eq, if_neg (validityFlags_ne_false s hhdr hvalid), sampleFits, ← hgw, ← hgh]
  have hapart := tableOverlap_iff s (chW s) (chH s)
  constructor
  · intro h
    split_ifs at h with hplanes htable hclash
    push Not at hplanes
    obtain ⟨hclear, hsource⟩ := not_or.1 (mt hapart.2 hclash)
    exact ⟨hw, hh, hplanes, not_lt.1 htable, not_exists.1 hclear, hsource⟩
  · rintro ⟨-, -, hplanes, htable, hclear, hsource⟩
    rw [if_neg (not_exists.2 fun c => not_lt.2 (hplanes c)), if_neg (not_lt.2 htable),
      if_neg (mt hapart.1 (not_or.2 ⟨not_exists.2 hclear, hsource⟩))]

theorem sampleCheck_of_fits (s : State) (hhdr : stBit s 3 = true) (hvalid : stBit s 4 = true)
    (hfits : sampleFits s (chW s) (chH s)) (hgw : grW s = (chW s + 31) / 32) (hgh : grH s = (chH s + 31) / 32) :
    sampleCheck s = none :=
  (sampleCheck_none_iff s hhdr hvalid hfits.1 hfits.2.1 hgw hgh).2 hfits

/-- After PARSE of a valid header UNPACK's checks ask whether the header's frame fits. -/
theorem unpackCheck_parsed_iff (s : State) (h : headerValid s) :
    unpackCheck s.parsed = none
      ↔ unpackFits s (hdr16 s 32) (hdr16 s 34) (strideValue (hdr16 s 32) (hdr16 s 36)) := by
  obtain ⟨-, -, -, hw, hh, -, hrows⟩ := h
  rw [unpackCheck_none_iff s.parsed (parsed_bit s 3) (by rw [parsed_imgW, hw]) (by rw [parsed_imgH, hh])
    (by rw [parsed_imgH]; omega), parsed_imgW, parsed_imgH, parsed_stride]
  exact Iff.rfl

/-- After PARSE and UNPACK of a valid header SAMPLE's checks ask whether its planes and table fit. -/
theorem sampleCheck_afterUnpack_iff (s : State) (h : headerValid s) :
    sampleCheck (afterUnpack s.parsed) = none ↔ sampleFits s (hdr16 s 32 / 2) (hdr16 s 34 / 2) := by
  obtain ⟨-, -, -, -, -, hcols, hrows⟩ := h
  have hcw : chW (afterUnpack s.parsed) = hdr16 s 32 / 2 := parsed_chW s
  have hch : chH (afterUnpack s.parsed) = hdr16 s 34 / 2 := parsed_chH s
  have hgw : grW (afterUnpack s.parsed) = (hdr16 s 32 / 2 + 31) / 32 := parsed_grW s
  have hgh : grH (afterUnpack s.parsed) = (hdr16 s 34 / 2 + 31) / 32 := parsed_grH s
  have hvalid : ∀ i, stBit (afterUnpack s.parsed) i = if i = 4 then true else stBit s.parsed i := fun i =>
    State.bit_setFlag _ _ _ i
  rw [sampleCheck_none_iff (afterUnpack s.parsed) ((hvalid 3).trans (parsed_bit s 3)) (hvalid 4) (by rwa [hcw])
    (by rwa [hch]) (by rw [hgw, hcw]) (by rw [hgh, hch]), hcw, hch]
  exact Iff.rfl

end Sys2Proof.Machine
end

section
/-! What the commands store: nothing outside their write footprint, and nothing at all where they end in an error (R79,
R80, R265). -/

namespace Sys2Proof.Machine

open Sys2Proof.Claims

/-! ## Memory after a phase -/

theorem parsePhase_read (s u : State) (h : (parsePhase s).endsIn u) (a : Nat) : u.mem.read a = s.mem.read a := by
  rcases parsePhase_endsIn s u h with rfl | rfl | ⟨-, rfl⟩ <;> rfl

theorem unpackWrites_of_check (s : State) (h : unpackCheck s = none) :
    unpackWrites s = s.planeRegions (s.width / 2) (s.height / 2) := by
  rw [unpackWrites, h]

theorem unpackWrites_of_error (s : State) (h : unpackCheck s ≠ none) : unpackWrites s = [] := by
  obtain ⟨code, hcode⟩ := Option.ne_none_iff_exists'.1 h
  rw [unpackWrites, hcode]

theorem sampleWrites_of_check (s : State) (h : sampleCheck s = none) : sampleWrites s = [s.tableRegion] := by
  rw [sampleWrites, h]

theorem sampleWrites_of_error (s : State) (h : sampleCheck s ≠ none) : sampleWrites s = [] := by
  obtain ⟨code, hcode⟩ := Option.ne_none_iff_exists'.1 h
  rw [sampleWrites, hcode]

/-- RUN's footprint where it performs UNPACK, and SAMPLE if that one's checks pass (R80, R244). -/
theorem runWrites_of_unpack (s s1 : State) (h1 : parsePhase s = .ok s1) (h2 : unpackCheck s1 = none) :
    runWrites s = unpackWrites s1 ++ sampleWrites (afterUnpack s1) := by
  rw [runWrites, h1]; dsimp only; rw [h2]

/-- A RUN that stops before UNPACK's effects stores nothing. -/
theorem runWrites_of_error (s : State) (h : ∀ s1, parsePhase s = .ok s1 → unpackCheck s1 ≠ none) :
    runWrites s = [] := by
  unfold runWrites
  cases h1 : parsePhase s with
  | ok s1 =>
    obtain ⟨code, hcode⟩ := Option.ne_none_iff_exists'.1 (h s1 h1)
    dsimp only; rw [hcode]
  | error | fault => rfl

theorem unpackPhase_read (s u : State) (h : (unpackPhase s).endsIn u) (a : Nat)
    (ha : ∀ g ∈ unpackWrites s, outside g.base g.len a) : u.mem.read a = s.mem.read a := by
  rcases unpackPhase_endsIn s u h with rfl | ⟨hcheck, rfl⟩
  · rfl
  · rw [unpackWrites_of_check s hcheck] at ha
    exact unpackEffects_read s a fun c => ha _ ((mem_planeRegions s _ _ _).2 ⟨c, rfl⟩)

theorem samplePhase_read (s u : State) (h : (samplePhase s).endsIn u) (a : Nat)
    (ha : ∀ g ∈ sampleWrites s, outside g.base g.len a) : u.mem.read a = s.mem.read a := by
  rcases samplePhase_endsIn s u h with rfl | ⟨hcheck, rfl⟩
  · rfl
  · rw [sampleWrites_of_check s hcheck] at ha
    exact sampleEffects_read s a (ha _ (List.mem_singleton.2 rfl))

/-- A successful UNPACK phase passed its checks. -/
theorem unpackPhase_ok (s s1 : State) (h : unpackPhase s = .ok s1) :
    unpackCheck s = none ∧ s1 = unpackEffects s := by
  rcases unpackPhase_cases s with ⟨_, -, hp⟩ | ⟨-, -, hp⟩ | ⟨hcheck, -, hp⟩ <;> rw [hp] at h
  · cases h
  · cases h
  · exact ⟨hcheck, (PhaseResult.ok.inj h).symm⟩

/-- SAMPLE's footprint in a RUN is taken before UNPACK's effects, and is the same after them. -/
theorem sampleWrites_unpackEffects (s : State) : sampleWrites (unpackEffects s) = sampleWrites (afterUnpack s) := by
  unfold sampleWrites
  rw [sampleCheck_unpackEffects]
  rfl

theorem runPhases_read (s u : State) (h : (runPhases s).2.endsIn u) (a : Nat)
    (ha : ∀ g ∈ runWrites s, outside g.base g.len a) : u.mem.read a = s.mem.read a := by
  rcases runPhases_endsIn s u h with h1 | ⟨s1, h1, hrest⟩
  · exact parsePhase_read s u h1 a
  · have hparse := parsePhase_read s s1 (.inl h1) a
    by_cases hcheck : unpackCheck s1 = none
    · rw [runWrites_of_unpack s s1 h1 hcheck, ← sampleWrites_unpackEffects] at ha
      have hunpack := fun v hv => unpackPhase_read s1 v hv a fun g hg => ha g (List.mem_append_left _ hg)
      rcases hrest with h2 | ⟨s2, h2, h3⟩
      · exact (hunpack u h2).trans hparse
      · obtain ⟨-, rfl⟩ := unpackPhase_ok s1 s2 h2
        have hsample := samplePhase_read _ u h3 a fun g hg => ha g (List.mem_append_right _ hg)
        exact hsample.trans ((hunpack _ (.inl h2)).trans hparse)
    · rcases hrest with h2 | ⟨s2, h2, -⟩
      · rcases unpackPhase_endsIn s1 u h2 with rfl | ⟨hnone, -⟩
        · exact hparse
        · exact absurd hnone hcheck
      · exact absurd (unpackPhase_ok s1 s2 h2).1 hcheck

theorem commandResult_read (i : Instr) (s u : State) (hi : isPhaseCommand i) (h : (commandResult i s).endsIn u)
    (a : Nat) (ha : ∀ g ∈ writeFootprint i s, outside g.base g.len a) : u.mem.read a = s.mem.read a := by
  cases i with
  | nop => exact (PhaseResult.endsIn_ok _ _).1 h ▸ rfl
  | parse => exact parsePhase_read s u h a
  | unpack => exact unpackPhase_read s u h a ha
  | sample => exact samplePhase_read s u h a ha
  | run => exact runPhases_read s u h a ha
  | illegalOpcode | illegalBits => exact (PhaseResult.endsIn_error _ _ _).1 h ▸ rfl
  | softReset | regWrite | regRead => exact hi.elim

/-- A completion stores nothing. -/
theorem exec_command_read (i : Instr) (s t : State) (hi : isPhaseCommand i) (h : exec i s = .next t) (a : Nat)
    (ha : ∀ g ∈ writeFootprint i s, outside g.base g.len a) : t.mem.read a = s.mem.read a := by
  obtain ⟨u, hu, rfl | ⟨_, _, _, rfl⟩⟩ := exec_command_cases i s t hi h
  · exact commandResult_read i s u hi hu a ha
  · exact commandResult_read i s u hi hu a ha

theorem resetBlock_read (s : State) (a : Nat) (ha : ∀ g ∈ s.runningWrites, outside g.base g.len a) :
    (resetBlock s).mem.read a = s.mem.read a := by
  obtain ⟨-, -, -, -, -, -, -, hmem⟩ := resetBlock_spec s
  exact hmem a ha

/-- A write stores nothing but what the reset of a running command scrambles. -/
theorem exec_regWrite_read (s t : State) (idx : BitVec 10) (data : Word) (h : exec (.regWrite idx data) s = .next t)
    (a : Nat) (ha : ∀ g ∈ s.runningWrites, outside g.base g.len a) : t.mem.read a = s.mem.read a := by
  obtain ⟨u, hu, hcases⟩ := exec_regWrite_cases s idx data
  obtain rfl := Host.Outcome.next.inj (hu.symm.trans h)
  rcases hcases with rfl | rfl | ⟨-, rfl⟩ | ⟨-, -, rfl⟩ | ⟨-, rfl⟩ | ⟨-, x, rfl⟩
  · rfl
  · exact resetBlock_read s a ha
  · rfl
  · rw [acceptCommand_eq]; rfl
  · rw [writeStatus_eq]; rfl
  · rfl

/-- Settles O48: `exec_command_read` for the commands, and the reset for the rest. -/
theorem memoryOutsideTheFootprintIsKept : Obligations.MemoryOutsideTheFootprintIsKept := by
  intro i s t a h ha
  cases i with
  | softReset => exact Host.Outcome.next.inj h ▸ resetBlock_read s a ha
  | regWrite idx data => exact exec_regWrite_read s t idx data h a ha
  | regRead idx =>
    obtain ⟨u, hu, rfl | ⟨v, rfl⟩⟩ := exec_regRead_cases s idx
    · exact Host.Outcome.next.inj (hu.symm.trans h) ▸ rfl
    · exact Host.Outcome.next.inj (hu.symm.trans h) ▸ rfl
  | _ => exact exec_command_read _ s t (by trivial) h a ha

/-! ## Erroring phases -/

/-- A command whose DONE stays clear ended in an error of its phases. -/
theorem commandResult_of_not_done (i : Instr) (s t : State) (hi : isPhaseCommand i) (h : exec i s = .next t)
    (hdone : stBit t 1 = false) :
    ∃ u issued phase code, commandResult i s = .error u code ∧ t = completeError issued phase code u := by
  obtain ⟨issued, phase, hexec⟩ := exec_command i s hi
  rcases complete_cases issued phase _ t (hexec.symm.trans h) with ⟨u, -, rfl⟩ | ⟨u, code, hu, rfl⟩
  · rw [stBit, completeOk_bit] at hdone
    cases hdone
  · exact ⟨u, issued, phase, code, hu, rfl⟩

/-- A phase that ends in an error leaves memory as it was. -/
theorem parse_error_mem (s u : State) (code : ErrCode) (h : parsePhase s = .error u code) : u.mem = s.mem := by
  rcases parsePhase_endsIn s u (.inr ⟨code, h⟩) with rfl | rfl | ⟨-, rfl⟩ <;> rfl

theorem unpackPhase_error (s u : State) (code : ErrCode) (h : unpackPhase s = .error u code) :
    unpackCheck s = some code ∧ u = s := by
  rcases unpackPhase_cases s with ⟨c, hcheck, hp⟩ | ⟨-, -, hp⟩ | ⟨-, -, hp⟩ <;> rw [hp] at h <;> cases h
  exact ⟨hcheck, rfl⟩

theorem samplePhase_error (s u : State) (code : ErrCode) (h : samplePhase s = .error u code) :
    sampleCheck s = some code ∧ u = s := by
  rcases samplePhase_cases s with ⟨c, hcheck, hp⟩ | ⟨-, -, hp⟩ | ⟨-, -, hp⟩ <;> rw [hp] at h <;> cases h
  exact ⟨hcheck, rfl⟩

/-- Settles O51: without DONE the phase ended in an error, which leaves memory as it was. -/
theorem erroringPhaseWritesNoMemory : Obligations.ErroringPhaseWritesNoMemory := by
  intro i s t hi _ h hdone a
  rcases hi with rfl | rfl | rfl
  · obtain ⟨u, _, _, code, hu, rfl⟩ := commandResult_of_not_done .parse s t trivial h hdone
    exact congrArg (Memory.read · a) (parse_error_mem s u code hu)
  · obtain ⟨u, _, _, code, hu, rfl⟩ := commandResult_of_not_done .unpack s t trivial h hdone
    obtain ⟨-, rfl⟩ := unpackPhase_error s u code hu
    rfl
  · obtain ⟨u, _, _, code, hu, rfl⟩ := commandResult_of_not_done .sample s t trivial h hdone
    obtain ⟨-, rfl⟩ := samplePhase_error s u code hu
    rfl

end Sys2Proof.Machine
end

section
/-! The footprints as regions of the table of R80, written with the numbers of the statements. -/

namespace Sys2Proof.Machine

open Sys2Proof.Claims

/-! ## Footprints of the phases -/

theorem mem_planeRegions_iff (s : State) (cw ch : Nat) (g : Region) :
    g ∈ s.planeRegions cw ch ↔ ∃ c, g = planeReg s cw ch c := mem_planeRegions s cw ch g

theorem mem_unpackWrites_of_check (s : State) (g : Region) (h : unpackCheck s = none) :
    g ∈ unpackWrites s ↔ ∃ c, g = planeReg s (imgW s / 2) (imgH s / 2) c := by
  rw [unpackWrites_of_check s h, width_eq_imgW, height_eq_imgH, mem_planeRegions_iff]

theorem mem_sampleWrites_of_check (s : State) (g : Region) (h : sampleCheck s = none) :
    g ∈ sampleWrites s ↔ g = tableReg s (grW s) (grH s) := by
  rw [sampleWrites_of_check s h, List.mem_singleton, tableRegion_eq]; rfl

theorem unpackCheck_of_mem_writes (s : State) (g : Region) (h : g ∈ unpackWrites s) : unpackCheck s = none := by
  by_contra hne
  rw [unpackWrites_of_error s hne] at h
  exact List.not_mem_nil h

theorem sampleCheck_of_mem_writes (s : State) (g : Region) (h : g ∈ sampleWrites s) : sampleCheck s = none := by
  by_contra hne
  rw [sampleWrites_of_error s hne] at h
  exact List.not_mem_nil h

/-- SAMPLE's footprint in a RUN is its table, if its checks pass there. -/
theorem mem_sampleWrites_afterUnpack (s : State) (g : Region) (h : headerValid s) :
    g ∈ sampleWrites (afterUnpack s.parsed)
      ↔ sampleFits s (hdr16 s 32 / 2) (hdr16 s 34 / 2)
        ∧ g = tableReg s ((hdr16 s 32 / 2 + 31) / 32) ((hdr16 s 34 / 2 + 31) / 32) := by
  have htable : tableReg (afterUnpack s.parsed) (grW (afterUnpack s.parsed)) (grH (afterUnpack s.parsed))
      = tableReg s ((hdr16 s 32 / 2 + 31) / 32) ((hdr16 s 34 / 2 + 31) / 32) :=
    congrArg₂ (tableReg s) (parsed_grW s) (parsed_grH s)
  rw [← sampleCheck_afterUnpack_iff s h, ← htable]
  exact ⟨fun hg => ⟨sampleCheck_of_mem_writes _ g hg,
      (mem_sampleWrites_of_check _ g (sampleCheck_of_mem_writes _ g hg)).1 hg⟩,
    fun ⟨hcheck, hg⟩ => (mem_sampleWrites_of_check _ g hcheck).2 hg⟩

theorem mem_parsedPlanes_iff (s : State) (g : Region) :
    (∃ c, g = planeReg s.parsed (imgW s.parsed / 2) (imgH s.parsed / 2) c)
      ↔ ∃ c, g = planeReg s (hdr16 s 32 / 2) (hdr16 s 34 / 2) c := by
  rw [parsed_imgW, parsed_imgH]; exact Iff.rfl

/-! ## Footprints of RUN -/

/-- A RUN goes on to SAMPLE where PARSE succeeds and UNPACK's checks pass after it. -/
theorem runReachesSample_iff (s : State) :
    runReachesSample s ↔ headerValid s ∧ unpackCheck s.parsed = none :=
  ⟨fun ⟨hread, hfmt, hord, hgeom, hfits⟩ =>
      ⟨⟨hread, hfmt, hord, hgeom⟩, (unpackCheck_parsed_iff s ⟨hread, hfmt, hord, hgeom⟩).2 hfits⟩,
    fun ⟨hvalid, hcheck⟩ =>
      ⟨hvalid.1, hvalid.2.1, hvalid.2.2.1, hvalid.2.2.2, (unpackCheck_parsed_iff s hvalid).1 hcheck⟩⟩

/-- A RUN that does not go on to SAMPLE stops before UNPACK's effects. -/
theorem unpackCheck_of_not_reaches (s : State) (h : ¬ runReachesSample s) (s1 : State) (h1 : parsePhase s = .ok s1) :
    unpackCheck s1 ≠ none := by
  obtain ⟨hvalid, rfl⟩ := (parsePhase_ok_iff s s1).1 h1
  exact fun hcheck => h ((runReachesSample_iff s).2 ⟨hvalid, hcheck⟩)

/-- RUN's write footprint: the planes, and the table if SAMPLE's checks pass (R80). -/
theorem mem_runWrites_iff (s : State) (g : Region) (h : runReachesSample s) :
    g ∈ runWrites s ↔ (∃ c, g = planeReg s (hdr16 s 32 / 2) (hdr16 s 34 / 2) c)
      ∨ (sampleFits s (hdr16 s 32 / 2) (hdr16 s 34 / 2)
        ∧ g = tableReg s ((hdr16 s 32 / 2 + 31) / 32) ((hdr16 s 34 / 2 + 31) / 32)) := by
  obtain ⟨hvalid, hcheck⟩ := (runReachesSample_iff s).1 h
  rw [runWrites_of_unpack s _ ((parsePhase_ok_iff s _).2 ⟨hvalid, rfl⟩) hcheck, List.mem_append,
    mem_unpackWrites_of_check _ g hcheck, mem_parsedPlanes_iff, mem_sampleWrites_afterUnpack s g hvalid]

theorem runReachesSample_of_mem (s : State) (g : Region) (h : g ∈ runWrites s) : runReachesSample s := by
  by_contra hne
  rw [runWrites_of_error s (unpackCheck_of_not_reaches s hne)] at h
  exact List.not_mem_nil h

/-! ## Commands that end in an error -/

/-- An UNPACK that sets ERR failed one of its checks. -/
theorem unpackCheck_of_err (s t : State) (hs : stBit s 2 = false) (h : exec .unpack s = .next t)
    (ht : stBit t 2 = true) : unpackCheck s ≠ none := by
  rcases complete_cases _ _ _ t ((exec_unpack s).symm.trans h) with ⟨u, hu, rfl⟩ | ⟨u, code, hu, rfl⟩
  · obtain ⟨-, rfl⟩ := unpackPhase_ok s u hu
    rw [stBit, completeOk_bit, unpackEffects_bit] at ht
    exact absurd (hs.symm.trans ht) (by decide)
  · rw [(unpackPhase_error s u code hu).1]; exact Option.some_ne_none code

/-- A successful SAMPLE phase has its effects. -/
theorem samplePhase_ok (s s1 : State) (h : samplePhase s = .ok s1) : sampleCheck s = none ∧ s1 = sampleEffects s := by
  rcases samplePhase_cases s with ⟨_, -, hp⟩ | ⟨-, -, hp⟩ | ⟨hcheck, -, hp⟩ <;> rw [hp] at h
  · cases h
  · cases h
  · exact ⟨hcheck, (PhaseResult.ok.inj h).symm⟩

/-- A SAMPLE that sets ERR failed one of its checks. -/
theorem sampleCheck_of_err (s t : State) (hs : stBit s 2 = false) (h : exec .sample s = .next t)
    (ht : stBit t 2 = true) : sampleCheck s ≠ none := by
  rcases complete_cases _ _ _ t ((exec_sample s).symm.trans h) with ⟨u, hu, rfl⟩ | ⟨u, code, hu, rfl⟩
  · obtain ⟨-, rfl⟩ := samplePhase_ok s u hu
    rw [stBit, completeOk_bit, sampleEffects_bit] at ht
    exact absurd (hs.symm.trans ht) (by decide)
  · rw [(samplePhase_error s u code hu).1]; exact Option.some_ne_none code

theorem exec_run (s : State) : exec .run s = complete 4#4 (runPhases s).1 (runPhases s).2 := rfl

/-- PLANES_VALID is no flag that a completion or SAMPLE clears. -/
theorem samplePhase_planesValid (s u : State) (h : (samplePhase s).endsIn u) (hs : stBit s 4 = true) :
    stBit u 4 = true := by
  rcases samplePhase_endsIn s u h with rfl | ⟨-, rfl⟩
  · exact hs
  · exact (sampleEffects_bit s 4).trans hs

/-- A RUN that does not set PLANES_VALID stopped before UNPACK's effects (R265). -/
theorem not_reaches_of_planes_invalid (s t : State) (h : exec .run s = .next t) (ht : stBit t 4 = false) :
    ¬ runReachesSample s := by
  intro hreach
  obtain ⟨hvalid, hcheck⟩ := (runReachesSample_iff s).1 hreach
  have h1 : parsePhase s = .ok s.parsed := (parsePhase_ok_iff s _).2 ⟨hvalid, rfl⟩
  obtain ⟨u, hu, ht'⟩ := exec_command_cases .run s t trivial h
  have hplanes : stBit u 4 = true := by
    rcases unpackPhase_cases s.parsed with ⟨code, hsome, -⟩ | ⟨-, -, h2⟩ | ⟨-, -, h2⟩
    · rw [hcheck] at hsome; cases hsome
    · rw [commandResult, runPhases_of_unpack_fault s _ _ h1 h2] at hu
      exact (PhaseResult.not_endsIn_fault _ _ hu).elim
    · rw [commandResult, runPhases_of_unpack_ok s _ _ h1 h2] at hu
      exact samplePhase_planesValid _ u hu (unpackEffects_bit _ 4)
  rcases ht' with rfl | ⟨_, _, _, rfl⟩
  · exact absurd ((completeOk_bit u 4).symm.trans ht) (by simpa [stBit] using hplanes)
  · exact absurd ((completeError_bit _ _ _ u 4).symm.trans ht) (by simpa [stBit] using hplanes)

/-! ## The running footprints -/

theorem runningWrites_busy (s : State) (w : Word) (h : s.flag .busy = true) (hw : s.pending = some w) :
    s.runningWrites = writeFootprint (decodeCommand w) s := by
  rw [State.runningWrites, runningCommand_busy s w h hw]

theorem runningReads_busy (s : State) (w : Word) (h : s.flag .busy = true) (hw : s.pending = some w) :
    s.runningReads = readFootprint (decodeCommand w) s := by
  rw [State.runningReads, runningCommand_busy s w h hw]

theorem runningReads_idle (s : State) (h : s.flag .busy = false) : s.runningReads = [] := by
  rw [State.runningReads, runningCommand_idle s h]

/-- Settles O49: each footprint by its membership lemma, a failing command's by the check it failed. -/
theorem footprintsAreTheRegionsOfTheTable : Obligations.FootprintsAreTheRegionsOfTheTable := by
  intro s g
  refine ⟨fun hhdr hfits => ?unpack, fun hhdr hvalid hfits hgw hgh => ?sample, fun hreach hfits => ?run,
    fun hreach hnot => ?runPlanes, fun hg => ?unpackMost, fun hg => ?sampleMost, fun hg => ?runMost,
    fun i t hi hs h ht => ?failing, fun t _ h ht => ?runFailing, fun i rsv op hi => ?others,
    fun w hbusy hw => runningWrites_busy s w hbusy hw, fun hidle => runningWrites_idle s hidle⟩
  case unpack => exact mem_unpackWrites_of_check s g (unpackCheck_of_fits s hhdr hfits)
  case sample => exact mem_sampleWrites_of_check s g (sampleCheck_of_fits s hhdr hvalid hfits hgw hgh)
  case run => rw [writeFootprint, mem_runWrites_iff s g hreach, and_iff_right hfits]
  case runPlanes =>
    rw [writeFootprint, mem_runWrites_iff s g hreach, or_iff_left fun hsample => hnot hsample.1]
  case unpackMost => exact (mem_unpackWrites_of_check s g (unpackCheck_of_mem_writes s g hg)).1 hg
  case sampleMost => exact (mem_sampleWrites_of_check s g (sampleCheck_of_mem_writes s g hg)).1 hg
  case runMost =>
    have hreach := runReachesSample_of_mem s g hg
    exact ⟨hreach.1, ((mem_runWrites_iff s g hreach).1 hg).imp_right And.right⟩
  case failing =>
    rcases hi with rfl | rfl
    · exact fun hg => unpackCheck_of_err s t hs h ht (unpackCheck_of_mem_writes s g hg)
    · exact fun hg => sampleCheck_of_err s t hs h ht (sampleCheck_of_mem_writes s g hg)
  case runFailing => exact fun hg => not_reaches_of_planes_invalid s t h ht (runReachesSample_of_mem s g hg)
  case others =>
    simp only [List.mem_cons, List.not_mem_nil, or_false] at hi
    rcases hi with rfl | rfl | rfl | rfl | rfl <;> exact List.not_mem_nil

/-! ## What the commands read -/

/-- PARSE reads once its source is in range and holds a tag (R80, R140, R143). -/
theorem mem_parseReads_iff (s : State) (g : Region) :
    g ∈ parseReads s ↔ (src s + len s ≤ 2 ^ 32 ∧ 4 ≤ len s) ∧ headerReg s g := by
  have hguard : (regionInRange s.sourceRegion && decide (4 ≤ s.regs.srcLen.toNat)) = true
      ↔ src s + len s ≤ 2 ^ 32 ∧ 4 ≤ len s := by
    rw [Bool.and_eq_true, decide_eq_true_iff, regionInRange_iff]; exact Iff.rfl
  rw [parseReads, ← hguard]
  split_ifs with h
  · rw [List.mem_cons, List.mem_singleton, and_iff_right h]; exact Iff.rfl
  · exact iff_of_false List.not_mem_nil fun hg => h hg.1

/-- The scanlines' pixel bytes (R181). -/
theorem mem_unpackReads_of_check (s : State) (g : Region) (h : unpackCheck s = none) :
    g ∈ unpackReads s ↔ ∃ y, y < imgH s ∧ g = scanline s s.regs.stride.toNat (imgW s) y := by
  rw [unpackReads, h]
  simp only [List.mem_map, List.mem_range, width_eq_imgW, height_eq_imgH, eq_comm (b := g)]
  exact Iff.rfl

theorem mem_sampleReads_of_check (s : State) (g : Region) (h : sampleCheck s = none) :
    g ∈ sampleReads s ↔ ∃ c, g = planeReg s (chW s) (chH s) c := by
  rw [sampleReads, h, chWidth_eq_chW, chHeight_eq_chH]
  exact mem_planeRegions_iff s _ _ g

theorem unpackCheck_of_mem_reads (s : State) (g : Region) (h : g ∈ unpackReads s) : unpackCheck s = none := by
  by_contra hne
  obtain ⟨code, hcode⟩ := Option.ne_none_iff_exists'.1 hne
  rw [unpackReads, hcode] at h
  exact List.not_mem_nil h

theorem sampleCheck_of_mem_reads (s : State) (g : Region) (h : g ∈ sampleReads s) : sampleCheck s = none := by
  by_contra hne
  obtain ⟨code, hcode⟩ := Option.ne_none_iff_exists'.1 hne
  rw [sampleReads, hcode] at h
  exact List.not_mem_nil h

theorem runReads_of_unpack (s s1 : State) (h1 : parsePhase s = .ok s1) (h2 : unpackCheck s1 = none) :
    runReads s = parseReads s ++ (unpackReads s1 ++ sampleReads (afterUnpack s1)) := by
  rw [runReads, h1]; dsimp only; rw [h2]

theorem runReads_of_error (s : State) (h : ∀ s1, parsePhase s = .ok s1 → unpackCheck s1 ≠ none) :
    runReads s = parseReads s := by
  unfold runReads
  cases h1 : parsePhase s with
  | ok s1 =>
    obtain ⟨code, hcode⟩ := Option.ne_none_iff_exists'.1 (h s1 h1)
    dsimp only; rw [hcode]; exact List.append_nil _
  | error | fault => exact List.append_nil _

/-- A readable header's bytes are read whenever they are the header's. -/
theorem mem_parseReads_of_readable (s : State) (g : Region) (h : headerReadable s) :
    g ∈ parseReads s ↔ headerReg s g := by
  obtain ⟨hrange, hlen, -⟩ := h
  rw [mem_parseReads_iff, and_iff_right ⟨hrange, hlen⟩]

theorem mem_unpackReads_parsed (s : State) (g : Region) (h : unpackCheck s.parsed = none) :
    g ∈ unpackReads s.parsed
      ↔ ∃ y, y < hdr16 s 34 ∧ g = scanline s (strideValue (hdr16 s 32) (hdr16 s 36)) (hdr16 s 32) y := by
  rw [mem_unpackReads_of_check _ g h, parsed_imgH, parsed_imgW, parsed_stride]; exact Iff.rfl

theorem mem_sampleReads_afterUnpack (s : State) (g : Region) (h : headerValid s) :
    g ∈ sampleReads (afterUnpack s.parsed)
      ↔ sampleFits s (hdr16 s 32 / 2) (hdr16 s 34 / 2)
        ∧ ∃ c, g = planeReg s (hdr16 s 32 / 2) (hdr16 s 34 / 2) c := by
  have hplanes : ∀ c, planeReg (afterUnpack s.parsed) (chW (afterUnpack s.parsed)) (chH (afterUnpack s.parsed)) c
      = planeReg s (hdr16 s 32 / 2) (hdr16 s 34 / 2) c := fun c =>
    congrArg₂ (planeReg s · · c) (parsed_chW s) (parsed_chH s)
  rw [← sampleCheck_afterUnpack_iff s h]
  simp only [← hplanes]
  exact ⟨fun hg => ⟨sampleCheck_of_mem_reads _ g hg,
      (mem_sampleReads_of_check _ g (sampleCheck_of_mem_reads _ g hg)).1 hg⟩,
    fun ⟨hcheck, hg⟩ => (mem_sampleReads_of_check _ g hcheck).2 hg⟩

/-- RUN's read footprint: the header, the scanlines, and the planes if SAMPLE's checks pass (R80). -/
theorem mem_runReads_iff (s : State) (g : Region) (h : runReachesSample s) :
    g ∈ runReads s ↔ headerReg s g
      ∨ (∃ y, y < hdr16 s 34 ∧ g = scanline s (strideValue (hdr16 s 32) (hdr16 s 36)) (hdr16 s 32) y)
      ∨ (sampleFits s (hdr16 s 32 / 2) (hdr16 s 34 / 2)
        ∧ ∃ c, g = planeReg s (hdr16 s 32 / 2) (hdr16 s 34 / 2) c) := by
  obtain ⟨hvalid, hcheck⟩ := (runReachesSample_iff s).1 h
  rw [runReads_of_unpack s _ ((parsePhase_ok_iff s _).2 ⟨hvalid, rfl⟩) hcheck, List.mem_append, List.mem_append,
    mem_parseReads_of_readable s g hvalid.1, mem_unpackReads_parsed s g hcheck, mem_sampleReads_afterUnpack s g hvalid]

/-- Settles O50: as for the write footprints, with the header's bytes in front. -/
theorem readFootprintsAreTheRegionsOfTheTable : Obligations.ReadFootprintsAreTheRegionsOfTheTable := by
  intro s g
  refine ⟨mem_parseReads_iff s g, fun hhdr hfits => ?unpack, fun hhdr hvalid hfits hgw hgh => ?sample,
    fun hreach hfits => ?run, fun hreach hnot => ?runHeader, fun i t hi hs h ht => ?failing,
    fun t _ h ht => ?runFailing, fun i rsv op hi => ?others, fun w hbusy hw => runningReads_busy s w hbusy hw,
    fun hidle => runningReads_idle s hidle⟩
  case unpack => exact mem_unpackReads_of_check s g (unpackCheck_of_fits s hhdr hfits)
  case sample => exact mem_sampleReads_of_check s g (sampleCheck_of_fits s hhdr hvalid hfits hgw hgh)
  case run => rw [readFootprint, mem_runReads_iff s g hreach, and_iff_right hfits]
  case runHeader =>
    rw [readFootprint, mem_runReads_iff s g hreach, ← or_assoc, or_iff_left fun hsample => hnot hsample.1]
  case failing =>
    rcases hi with rfl | rfl
    · exact fun hg => unpackCheck_of_err s t hs h ht (unpackCheck_of_mem_reads s g hg)
    · exact fun hg => sampleCheck_of_err s t hs h ht (sampleCheck_of_mem_reads s g hg)
  case runFailing =>
    have hstops := unpackCheck_of_not_reaches s (not_reaches_of_planes_invalid s t h ht)
    change g ∈ runReads s ↔ g ∈ parseReads s
    rw [runReads_of_error s hstops]
  case others =>
    simp only [List.mem_cons, List.not_mem_nil, or_false] at hi
    rcases hi with rfl | rfl | rfl | rfl <;> exact List.not_mem_nil

end Sys2Proof.Machine
end

section
/-! One step by whose turn it is, and the host's turn by its line (R81, R247 to R249, R303). -/

namespace Sys2Proof.Machine

open Sys2Proof.Claims

/-! ## Whose turn it is -/

theorem step_of_host (s : State) (q : List Turn) (h : s.schedule = .host :: q) :
    step s = hostTurn (s.setSchedule q) := by
  rw [step, takeTurn, h]

theorem step_of_engine (s : State) (q : List Turn) (h : s.schedule = .engine :: q) :
    step s = engineTurn (s.setSchedule q) := by
  rw [step, takeTurn, h]

theorem step_of_reset (s : State) (q : List Turn) (h : s.schedule = .reset :: q) :
    step s = .next (resetBlock (s.setSchedule q)) := by
  rw [step, takeTurn, h]

theorem step_unscheduled (s : State) (h : s.schedule = []) :
    step s = if s.flag .busy then engineTurn s else hostTurn s := by
  rw [step, takeTurn, h]

theorem step_unscheduled_busy (s : State) (h : s.schedule = []) (hbusy : s.flag .busy = true) :
    step s = engineTurn s := by
  rw [step_unscheduled s h, hbusy, if_pos rfl]

theorem step_unscheduled_idle (s : State) (h : s.schedule = []) (hidle : s.flag .busy = false) :
    step s = hostTurn s := by
  rw [step_unscheduled s h, hidle, if_neg Bool.false_ne_true]

theorem engineTurn_busy (s : State) (w : Word) (h : s.flag .busy = true) (hw : s.pending = some w) :
    engineTurn s = exec (decodeCommand w) s := by
  rw [engineTurn, h, if_pos rfl, hw]

theorem engineTurn_idle (s : State) (h : s.flag .busy = false) : engineTurn s = .next s := by
  rw [engineTurn, h, if_neg Bool.false_ne_true]

theorem hostTurn_of_line (s : State) (l : Line) (h : s.script[s.line]? = some l) : hostTurn s = runLine l s := by
  rw [hostTurn, h]

theorem hostTurn_of_no_line (s : State) (h : s.script[s.line]? = none) : hostTurn s = .next s := by
  rw [hostTurn, h]

/-- Settles O24: the scheduled reset is the reset of the block, as SOFT_RESET's is. -/
theorem resetInputActsAsSoftReset : Obligations.ResetInputActsAsSoftReset := by
  intro s q h
  rw [step_of_reset s q h, exec_softReset]

/-- Settles O9: whose turn it is, and what the engine does on it. -/
theorem engineTurnRunsThePendingCommand : Obligations.EngineTurnRunsThePendingCommand := by
  intro s
  refine ⟨fun w hw hbusy hnone => ?unscheduled, fun w q hw hbusy hq => ?scheduled, fun q hidle hq => ?idle⟩
  case unscheduled => rw [step_unscheduled_busy s hnone hbusy, engineTurn_busy s w hbusy hw]
  case scheduled => rw [step_of_engine s q hq, engineTurn_busy (s.setSchedule q) w hbusy hw]
  case idle => rw [step_of_engine s q hq, engineTurn_idle (s.setSchedule q) hidle]

/-- Settles O12: an unscheduled idle step is the host's, who has no line left. -/
theorem endedRunStaysEnded : Obligations.EndedRunStaysEnded := by
  intro s hnone hended
  obtain ⟨hline, hidle⟩ : s.script.length ≤ s.line ∧ s.flag .busy = false := by simpa [State.ended] using hended
  rw [step_unscheduled_idle s hnone hidle, hostTurn_of_no_line s (List.getElem?_eq_none hline)]

/-! ## Transactions -/

/-- A transaction always completes, and leaves the host's own state (R26, R240, R241). -/
theorem exec_of_decodePacket (t : Packet) (i : Instr) (s : State) (h : decodePacket t = .ok i) :
    ∃ v, exec i s = .next v ∧ HostKept s v := by
  rcases decodePacket_cases t with ⟨-, hd⟩ | ⟨-, -, hd⟩ | ⟨-, -, -, hd⟩ | ⟨-, -, -, hd⟩ <;> rw [hd] at h <;> cases h
  · exact exec_regWrite_hostKept s _ _
  · exact exec_regRead_hostKept s _

/-- The host's turn at a transaction runs it and goes to the next line (R248). -/
theorem hostTurn_of_packet (s : State) (t : Packet) (i : Instr) (hline : s.script[s.line]? = some (.bus t))
    (hi : decodePacket t = .ok i) :
    ∃ v, exec i s = .next v ∧ hostTurn s = .next (v.setLine (s.line + 1)) := by
  obtain ⟨v, hv, hkept⟩ := exec_of_decodePacket t i s hi
  refine ⟨v, hv, ?_⟩
  rw [hostTurn_of_line s _ hline, runLine, runPacket, hi]
  dsimp only
  rw [hv, andThen, advanceLine, hkept.line]

/-- At a value that is no transaction it is refused (R101). -/
theorem hostTurn_of_no_transaction (s : State) (t : Packet) (why : DecodeError)
    (hline : s.script[s.line]? = some (.bus t)) (hwhy : decodePacket t = .error why) :
    hostTurn s = .refused (.notATransaction why) := by
  rw [hostTurn_of_line s _ hline, runLine, runPacket, hwhy, andThen]

/-- Settles O8: either way it is the host's turn on `u`, at that line. -/
theorem hostTurnRunsThePacket : Obligations.HostTurnRunsThePacket := by
  rintro s u t i (⟨hq, hu⟩ | ⟨hnone, hidle, rfl⟩) hline hi
  · have hscript : u.script = s.script := (congrArg State.script hu).trans rfl
    have hposition : u.line = s.line := (congrArg State.line hu).trans rfl
    obtain ⟨v, hv, hturn⟩ := hostTurn_of_packet u t i (by rwa [hscript, hposition]) hi
    refine ⟨v, hv, ?_⟩
    rw [step_of_host s _ hq, ← hu, hturn, hposition]
  · obtain ⟨v, hv, hturn⟩ := hostTurn_of_packet u t i hline hi
    exact ⟨v, hv, (step_unscheduled_idle u hnone hidle).trans hturn⟩

/-- Settles O4: `decodePacket_error_iff`, and the host's turn at such a value. -/
theorem nonTransactionsAreRefused : Obligations.NonTransactionsAreRefused := by
  refine ⟨decodePacket_error_iff, fun s q t hq hline ht => ?_⟩
  obtain ⟨why, hwhy⟩ := (decodePacket_error_iff t).2 ht
  exact ⟨why, (step_of_host s q hq).trans (hostTurn_of_no_transaction _ t why hline hwhy)⟩

/-- Settles O11: POLL is a read of its register, which keeps the host's line, and then the comparison. -/
theorem pollStaysUntilItHolds : Obligations.PollStaysUntilItHolds := by
  intro s v q idx mask value hq hline hread
  have hkept := exec_hostKept _ _ _ hread
  have hposition : v.line = s.line := hkept.line
  rw [step_of_host s q hq, hostTurn_of_line (s.setSchedule q) _ hline, runLine, hread, andThen, advanceLine, hposition]

/-! ## Placed words -/

/-- The placed line stands at its index. -/
theorem placeLine_getElem? (n : Nat) (l : Line) (ls : List Line) : (placeLine n l ls)[n]? = some l := by
  induction n generalizing ls with
  | zero => cases ls <;> rfl
  | succ n ih => cases ls <;> exact ih _

theorem decodeTableWord_command (w : Nat) (i : Instr) (h : decodeTableWord 32 w = some i) :
    decodeCommand (BitVec.ofNat 32 w) = i := Option.some.inj h

theorem decodeTableWord_packet (w : Nat) (i : Instr) (h : decodeTableWord 64 w = some i) :
    decodePacket (BitVec.ofNat 64 w) = .ok i := by
  cases hd : decodePacket (BitVec.ofNat 64 w) with
  | ok j =>
    have hj : decodeTableWord 64 w = some j := by simp [decodeTableWord, Encoded.ofNat, decode, hd]
    rw [Option.some.inj (hj.symm.trans h)]
  | error why =>
    have hnone : decodeTableWord 64 w = none := by simp [decodeTableWord, Encoded.ofNat, decode, hd]
    cases hnone.symm.trans h

/-- The machine with a command word in progress, its schedule as it was. -/
def State.withPending (s : State) (c : Word) : State :=
  ((s.setPending (some c)).setFlag .busy true).setCurOp (c.extractLsb' 0 4)

theorem withPending_busy (s : State) (c : Word) : (s.withPending c).flag .busy = true := by
  simp [State.withPending]

/-- The machine with a packet on the host's line, its schedule as it was. -/
def State.withLine (s : State) (t : Packet) : State := { s with script := placeLine s.line (.bus t) s.script }

/-- A placed command word is in progress and the engine moves next. -/
theorem step_withFetchWord_command (s : State) (w : Nat) :
    step (s.withFetchWord 32 w) = exec (decodeCommand (BitVec.ofNat 32 w)) (s.withPending (BitVec.ofNat 32 w)) := by
  have hstep : step (s.withFetchWord 32 w) = engineTurn (s.withPending (BitVec.ofNat 32 w)) :=
    step_of_engine _ s.schedule rfl
  rw [hstep, engineTurn_busy _ _ (withPending_busy s _) rfl]

/-- A placed packet stands at the host's line and the host moves next. -/
theorem step_withFetchWord_packet (s : State) (w : Nat) :
    step (s.withFetchWord 64 w) = hostTurn (s.withLine (BitVec.ofNat 64 w)) :=
  step_of_host _ s.schedule rfl

/-- Settles O10: each placing gives the next turn to the one who runs the word. -/
theorem placedWordIsRunNext : Obligations.PlacedWordIsRunNext := by
  intro s w i
  refine ⟨fun hi => ?command, fun hi => ?packet⟩
  case command =>
    refine ⟨s.withPending (BitVec.ofNat 32 w), ?_, withPending_busy s _, rfl, rfl, rfl, fun x hx => ?_⟩
    · rw [step_withFetchWord_command, decodeTableWord_command w i hi]
    · exact (Regs.get_setStatus _ _ x hx).trans (Regs.get_setStatus _ _ x hx)
  case packet =>
    obtain ⟨v, hv, hturn⟩ := hostTurn_of_packet (s.withLine (BitVec.ofNat 64 w)) (BitVec.ofNat 64 w) i
      (placeLine_getElem? _ _ _) (decodeTableWord_packet w i hi)
    exact ⟨_, v, hv, (step_withFetchWord_packet s w).trans hturn, rfl, rfl, rfl, rfl⟩

end Sys2Proof.Machine
end

section
/-! The host's own accesses to the shared memory (R70, R81, R83, R306). -/

namespace Sys2Proof.Machine

open Sys2Proof.Claims

theorem inRegions_iff (gs : List Region) (a : Word) :
    inRegions gs a = true ↔ ∃ g ∈ gs, ¬ outside g.base g.len a.toNat := by
  simp only [inRegions, List.any_eq_true, regionHas_iff, outside]

theorem inRegions_eq_false_iff (gs : List Region) (a : Word) :
    inRegions gs a = false ↔ ∀ g ∈ gs, outside g.base g.len a.toNat := by
  rw [← Bool.not_eq_true, inRegions_iff]; push Not; exact Iff.rfl

theorem hostStore_outside (s : State) (a : Word) (v : Byte)
    (h : ∀ g ∈ s.runningReads ++ s.runningWrites, outside g.base g.len a.toNat) :
    hostStore a v s = .next (s.setMem (s.mem.write a.toNat v)) := by
  rw [hostStore, (inRegions_eq_false_iff _ a).2 h, if_neg Bool.false_ne_true]

theorem hostStore_inside (s : State) (a : Word) (v : Byte)
    (h : ∃ g ∈ s.runningReads ++ s.runningWrites, ¬ outside g.base g.len a.toNat) :
    hostStore a v s = .refused (.footprintRace a) := by
  rw [hostStore, (inRegions_iff _ a).2 h, if_pos rfl]

theorem hostLoad_outside (s : State) (a : Word) (h : ∀ g ∈ s.runningWrites, outside g.base g.len a.toNat) :
    hostLoad a s = s.setLoadData (s.mem.read a.toNat) := by
  rw [hostLoad, (inRegions_eq_false_iff _ a).2 h, if_neg Bool.false_ne_true]

theorem hostLoad_inside (s : State) (a : Word) (h : ∃ g ∈ s.runningWrites, ¬ outside g.base g.len a.toNat) :
    hostLoad a s = drawLoadData s := by
  rw [hostLoad, (inRegions_iff _ a).2 h, if_pos rfl]

/-- The host's turn at a store outside the running footprints. -/
theorem hostTurn_of_store (s : State) (a : Word) (v : Byte) (hline : s.script[s.line]? = some (.store a v))
    (h : ∀ g ∈ s.runningReads ++ s.runningWrites, outside g.base g.len a.toNat) :
    hostTurn s = .next ((s.setMem (s.mem.write a.toNat v)).setLine (s.line + 1)) := by
  rw [hostTurn_of_line s _ hline, runLine, hostStore_outside s a v h]; rfl

theorem hostTurn_of_load (s : State) (a : Word) (hline : s.script[s.line]? = some (.load a)) :
    hostTurn s = .next (advanceLine (hostLoad a s)) := by
  rw [hostTurn_of_line s _ hline, runLine]

/-- While idle no footprint is running. -/
theorem outside_runningWrites_idle (s : State) (a : Nat) (h : s.flag .busy = false) :
    ∀ g ∈ s.runningWrites, outside g.base g.len a := by
  rw [runningWrites_idle s h]; exact fun g hg => absurd hg List.not_mem_nil

theorem outside_running_idle (s : State) (a : Nat) (h : s.flag .busy = false) :
    ∀ g ∈ s.runningReads ++ s.runningWrites, outside g.base g.len a := by
  rw [runningReads_idle s h]; exact outside_runningWrites_idle s a h

/-- An idle host's step at a store performs it. -/
theorem step_of_idle_store (s : State) (a : Word) (v : Byte) (hnone : s.schedule = []) (hidle : s.flag .busy = false)
    (hline : s.script[s.line]? = some (.store a v)) :
    step s = .next ((s.setMem (s.mem.write a.toNat v)).setLine (s.line + 1)) := by
  rw [step_unscheduled_idle s hnone hidle, hostTurn_of_store s a v hline (outside_running_idle s _ hidle)]

/-- An idle host's step at a load returns what memory holds. -/
theorem step_of_idle_load (s : State) (a : Word) (hnone : s.schedule = []) (hidle : s.flag .busy = false)
    (hline : s.script[s.line]? = some (.load a)) :
    step s = .next ((s.setLoadData (s.mem.read a.toNat)).setLine (s.line + 1)) := by
  rw [step_unscheduled_idle s hnone hidle, hostTurn_of_load s a hline,
    hostLoad_outside s a (outside_runningWrites_idle s _ hidle)]
  rfl

/-- Settles O54: two turns of an idle host, the store and then the load. -/
theorem storedByteIsLoaded : Obligations.StoredByteIsLoaded := by
  intro s a v hnone hidle hstore hload
  exact ⟨_, _, step_of_idle_store s a v hnone hidle hstore, step_of_idle_load _ a hnone hidle hload,
    Memory.read_write_same _ _ _, rfl, rfl, fun b hb => Memory.read_write_other _ _ b v hb⟩

/-- Settles O55: the host's turn at a load or a store, by where its address lies. -/
theorem hostAccessWhileBusy : Obligations.HostAccessWhileBusy := by
  intro s q a v hq
  refine ⟨fun hline hout => ?load, fun hline hout => ?store, fun hline hin => ?race⟩
  case load =>
    rw [step_of_host s q hq, hostTurn_of_load (s.setSchedule q) a hline,
      hostLoad_outside _ a (by rwa [runningWrites_setSchedule])]
    rfl
  case store =>
    refine ⟨_, (step_of_host s q hq).trans (hostTurn_of_store (s.setSchedule q) a v hline ?_),
      Memory.read_write_same _ _ _, rfl, fun b hb => Memory.read_write_other _ _ b v hb⟩
    rwa [runningReads_setSchedule, runningWrites_setSchedule]
  case race =>
    rw [step_of_host s q hq, hostTurn_of_line (s.setSchedule q) _ hline, runLine, hostStore_inside, andThen]
    rwa [runningReads_setSchedule, runningWrites_setSchedule]

/-- Settles O56: the load draws the next free byte. -/
theorem hostLoadInsideAFootprintGoesOn : Obligations.HostLoadInsideAFootprintGoesOn := by
  intro s q a hq hline hin
  refine ⟨advanceLine (drawLoadData (s.setSchedule q)), ?_, rfl, rfl⟩
  rw [step_of_host s q hq, hostTurn_of_load (s.setSchedule q) a hline,
    hostLoad_inside _ a (by rwa [runningWrites_setSchedule])]

end Sys2Proof.Machine
end

section
/-! The parts of the invariant: what each rests on, so that an update of anything else keeps it. -/

namespace Sys2Proof.Machine

open Sys2Proof.Claims

/-! ## What the parts rest on -/

theorem runningCommand_congr (s t : State) (hbusy : t.flag .busy = s.flag .busy) (hpending : t.pending = s.pending) :
    t.runningCommand = s.runningCommand := by
  rw [State.runningCommand, State.runningCommand, hbusy, hpending]

theorem ReservedZero.setStatus {r : Regs} (h : ReservedZero r) (v : Word) (hmid : v.extractLsb' 9 3 = 0#3)
    (hhigh : v.extractLsb' 16 16 = 0#16) : ReservedZero (r.setStatus v) :=
  ⟨h.ctrl, h.mode, hmid, hhigh, h.errcode, h.blackLevel, h.fmtCodes, h.hdrBayer, h.bayerOrder⟩

theorem ReservedZero.setErrcode {r : Regs} (h : ReservedZero r) (v : Word) (hv : v.extractLsb' 16 16 = 0#16) :
    ReservedZero (r.setErrcode v) :=
  ⟨h.ctrl, h.mode, h.statusMid, h.statusHigh, hv, h.blackLevel, h.fmtCodes, h.hdrBayer, h.bayerOrder⟩

/-- No flag is a reserved bit of STATUS. -/
theorem ReservedZero.setFlag {s : State} (h : ReservedZero s.regs) (f : Flag) (b : Bool) :
    ReservedZero (s.setFlag f b).regs := by
  have hlt := flagBit_lt f
  rw [State.setFlag_regs]
  exact h.setStatus _ ((extract_setBit _ _ _ _ _ (by omega)).trans h.statusMid)
    ((extract_setBit _ _ _ _ _ (by omega)).trans h.statusHigh)

/-- A STATUS word that agrees from bit 9 upward, but for CUR_OP, has the same reserved bits. -/
theorem ReservedZero.setStatus_of_bits {r : Regs} (h : ReservedZero r) (v : Word)
    (hbits : ∀ i, (9 ≤ i ∧ i < 12) ∨ 16 ≤ i → v.getLsbD i = r.status.getLsbD i) : ReservedZero (r.setStatus v) :=
  h.setStatus v ((extract_eq_of_bits_eq _ _ 9 3 fun i hlo hhi => hbits i (by omega)).trans h.statusMid)
    ((extract_eq_of_bits_eq _ _ 16 16 fun i hlo _ => hbits i (by omega)).trans h.statusHigh)

/-- The sticky flags UFLOW, DIV0 and WBUSY enter no rule on the flags. -/
theorem FlagsLegal.congr {s t : State} (h : FlagsLegal s)
    (hflag : ∀ f : Flag, f ≠ .uflow → f ≠ .div0 → f ≠ .wbusy → t.flag f = s.flag f)
    (herrcode : t.regs.errcode = s.regs.errcode) : FlagsLegal t := by
  have hbusy := hflag .busy (by decide) (by decide) (by decide)
  have hdone := hflag .done (by decide) (by decide) (by decide)
  have herr := hflag .err (by decide) (by decide) (by decide)
  have hhdr := hflag .hdrValid (by decide) (by decide) (by decide)
  have hplanes := hflag .planesValid (by decide) (by decide) (by decide)
  have hgrid := hflag .gridValid (by decide) (by decide) (by decide)
  constructor
  · rw [hdone, herr]; exact h.doneErr
  · rw [hbusy, hdone]; exact h.busyDone
  · rw [hbusy, herr]; exact h.busyErr
  · rw [herr, herrcode]; exact h.codeZero
  · rw [hplanes, hhdr]; exact h.planesHdr
  · rw [hgrid, hplanes]; exact h.gridPlanes

/-- While idle no pending word is asked for. -/
theorem PendingLegal.of_idle {s : State} (h : s.flag .busy = false) : PendingLegal s := by
  have hnone := runningCommand_idle s h
  exact ⟨fun hbusy => absurd (h.symm.trans hbusy) Bool.false_ne_true, by simp [hnone], by simp [hnone], by simp [hnone]⟩

/-- The geometry is asked for under HDR_VALID, of the latched and derived registers. -/
theorem GeometryLatched.congr {s t : State} (h : GeometryLatched s)
    (hhdr : t.flag .hdrValid = true → s.flag .hdrValid = true) (hdim : t.regs.hdrDim = s.regs.hdrDim)
    (hpad : t.regs.hdrPad = s.regs.hdrPad) (hch : t.regs.chDim = s.regs.chDim)
    (hgrid : t.regs.gridDim = s.regs.gridDim) (hstride : t.regs.stride = s.regs.stride)
    (horder : t.regs.bayerOrder = s.regs.bayerOrder) : GeometryLatched t := by
  have hwidth : t.width = s.width := by rw [State.width, State.width, hdim]
  have hheight : t.height = s.height := by rw [State.height, State.height, hdim]
  constructor <;> intro ht
  · rw [State.geometryLegal, hwidth, hheight]; exact h.legal (hhdr ht)
  · rw [hch, hheight, hwidth]; exact h.chDim (hhdr ht)
  · rw [hgrid, hheight, hwidth]; exact h.gridDim (hhdr ht)
  · rw [hstride, hwidth, hpad]; exact h.stride (hhdr ht)
  · rw [State.orderMatched, horder]; exact h.order (hhdr ht)

theorem GeometryLatched.of_no_header {s : State} (h : s.flag .hdrValid = false) : GeometryLatched s := by
  constructor <;> exact fun hs => absurd (h.symm.trans hs) Bool.false_ne_true

/-- The invariant rests on registers, pending word and memory alone; the host's own state and the draws are free. -/
theorem Inv.congr {s t : State} (h : Inv s) (hregs : t.regs = s.regs) (hpending : t.pending = s.pending)
    (hmem : t.mem.wf = true) : Inv t := by
  have hflag : ∀ f, t.flag f = s.flag f := fun f => by rw [State.flag, State.flag, hregs]
  have hrunning := runningCommand_congr s t (hflag .busy) hpending
  refine ⟨hmem, hregs ▸ h.reserved, h.flags.congr (fun f _ _ _ => hflag f) (by rw [hregs]), ⟨?_, ?_, ?_, ?_⟩,
    h.geometry.congr (by rw [hflag]; exact id) (by rw [hregs]) (by rw [hregs]) (by rw [hregs]) (by rw [hregs])
      (by rw [hregs]) (by rw [hregs])⟩
  · rw [hflag, hpending, State.curOp, hregs]; exact h.pending.accepted
  · rw [hrunning, hflag]; exact h.pending.hdr
  · rw [hrunning, hflag]; exact h.pending.planes
  · rw [hrunning, hflag]; exact h.pending.grid

/-! ## Reset -/

theorem reservedZero_reset : ReservedZero Regs.reset := by
  have hcodes : Regs.reset.fmtCodes.extractLsb' 24 8 = 0#8 := BitVec.extractLsb'_append_eq_left
  exact ⟨by decide, by decide, by decide, by decide, by decide, by decide, hcodes, by decide, by decide⟩

/-- The invariant holds with every register at its reset value, whatever the memory. -/
theorem Inv.of_reset {s : State} (hregs : s.regs = Regs.reset) (hmem : s.mem.wf = true) : Inv s := by
  have hflag : ∀ f, s.flag f = false := fun f => by rw [State.flag, hregs]; cases f <;> rfl
  have herrcode : s.regs.errcode = 0#32 := by rw [hregs]; rfl
  refine ⟨hmem, hregs ▸ reservedZero_reset, ?_, .of_idle (hflag .busy), .of_no_header (hflag .hdrValid)⟩
  constructor <;> simp [hflag, herrcode]

/-- Settles O43: `Inv.of_reset`. -/
theorem resetMeetsTheInvariant : Obligations.ResetMeetsTheInvariant := .of_reset rfl reset_mem_wf

theorem runningWrites_inRange (s : State) (g : Region) (h : g ∈ s.runningWrites) :
    g.base + g.len ≤ Config.addressLimit := by
  unfold State.runningWrites at h
  split at h
  · exact writeFootprint_inRange _ s g h
  · exact absurd h List.not_mem_nil

theorem Inv.resetBlock {s : State} (h : Inv s) : Inv (resetBlock s) :=
  .of_reset rfl (scramble_wf s.runningWrites s h.mem (runningWrites_inRange s))

end Sys2Proof.Machine
end

section
/-! The invariant through the phases of a command (R152, R247, R270). -/

namespace Sys2Proof.Machine

open Sys2Proof.Claims

/-- What holds while the phases of a command run, and lets the completion end in the invariant: no outcome is recorded
yet, and the validity flags stand in order. -/
structure InPhase (s : State) : Prop where
  mem : s.mem.wf = true
  reserved : ReservedZero s.regs
  done : s.flag .done = false
  err : s.flag .err = false
  errcode : s.regs.errcode = 0#32
  planesHdr : s.flag .planesValid = true → s.flag .hdrValid = true
  gridPlanes : s.flag .gridValid = true → s.flag .planesValid = true
  geometry : GeometryLatched s

theorem Inv.inPhase {s : State} (h : Inv s) (hbusy : s.flag .busy = true) : InPhase s :=
  ⟨h.mem, h.reserved, h.flags.busyDone hbusy, h.flags.busyErr hbusy, h.flags.codeZero (h.flags.busyErr hbusy),
    h.flags.planesHdr, h.flags.gridPlanes, h.geometry⟩

/-! ## Completion -/

theorem InPhase.completeOk {s : State} (h : InPhase s) : Inv (completeOk s) := by
  have hflag : ∀ f, (Machine.completeOk s).flag f
      = if f = .busy then false else if f = .done then true else s.flag f := fun f => by
    rw [Machine.completeOk, State.flag_setFlag, State.flag_setFlag]
  have hidle : (Machine.completeOk s).flag .busy = false := hflag .busy
  refine ⟨h.mem, (h.reserved.setFlag .done true).setFlag .busy false, ?_, .of_idle hidle,
    h.geometry.congr (by rw [hflag]; exact id) rfl rfl rfl rfl rfl rfl⟩
  constructor
  case planesHdr => rw [hflag, hflag]; exact h.planesHdr
  case gridPlanes => rw [hflag, hflag]; exact h.gridPlanes
  case codeZero => exact fun _ => h.errcode
  all_goals simp [hflag, h.err]

theorem errWord_reserved (issued phase : BitVec 4) (code : ErrCode) :
    (errWord issued phase code).extractLsb' 16 16 = 0#16 :=
  (BitVec.extractLsb'_append_eq_of_le (by decide)).trans
    ((BitVec.extractLsb'_append_eq_of_le (by decide)).trans BitVec.extractLsb'_append_eq_left)

theorem InPhase.completeError {s : State} (h : InPhase s) (issued phase : BitVec 4) (code : ErrCode) :
    Inv (completeError issued phase code s) := by
  have hflag : ∀ f, (Machine.completeError issued phase code s).flag f
      = if f = .busy then false else if f = .err then true else s.flag f := fun f => by
    rw [Machine.completeError, State.flag_setFlag, State.flag_setFlag]; rfl
  have hidle : (Machine.completeError issued phase code s).flag .busy = false := hflag .busy
  have hreserved : ReservedZero (s.setErrcode (errWord issued phase code)).regs :=
    h.reserved.setErrcode _ (errWord_reserved issued phase code)
  refine ⟨h.mem, (hreserved.setFlag .err true).setFlag .busy false, ?_, .of_idle hidle,
    h.geometry.congr (by rw [hflag]; exact id) rfl rfl rfl rfl rfl rfl⟩
  constructor
  case planesHdr => rw [hflag, hflag]; exact h.planesHdr
  case gridPlanes => rw [hflag, hflag]; exact h.gridPlanes
  all_goals simp [hflag, h.done]

/-! ## PARSE -/

theorem bayerOrderWord_reserved (o : Option (BitVec 2)) : (bayerOrderWord o).extractLsb' 2 29 = 0#29 := by
  cases o with
  | none => decide
  | some k => revert k; decide

theorem ReservedZero.latchedRegs {s : State} (h : ReservedZero s.regs) : ReservedZero s.latchedRegs := by
  have hbayer : s.latchedRegs.hdrBayer.extractLsb' 16 16 = 0#16 :=
    (BitVec.extractLsb'_append_eq_of_le (by decide)).trans BitVec.extractLsb'_append_eq_left
  exact ⟨h.ctrl, h.mode, h.statusMid, h.statusHigh, h.errcode, h.blackLevel, h.fmtCodes, hbayer,
    bayerOrderWord_reserved _⟩

theorem InPhase.latchHeader {s : State} (h : InPhase s) (hhdr : s.flag .hdrValid = false) : InPhase s.latchHeader :=
  ⟨h.mem, h.reserved.latchedRegs, h.done, h.err, h.errcode, h.planesHdr, h.gridPlanes, .of_no_header hhdr⟩

/-- What the latch derives from the header is what R146 to R150 ask, once the checks after the latch pass. -/
theorem geometryLatched_parsed (s : State) (h : parsePostcheck s.latchHeader = none) : GeometryLatched s.parsed := by
  obtain ⟨-, horder, hlegal⟩ := parsePostcheck_none _ h
  have hwidth : s.parsed.width = (s.headerHalf 32).toNat := lowHalf_append _ _
  have hheight : s.parsed.height = (s.headerHalf 34).toNat := highHalf_append _ _
  have hpad : lowHalf s.parsed.regs.hdrPad = (s.headerHalf 36).toNat := lowHalf_append _ _
  constructor <;> intro _
  · exact hlegal
  · rw [hwidth, hheight]; exact s.latchedRegs_chDim
  · rw [hwidth, hheight]; exact s.latchedRegs_gridDim
  · rw [hwidth, hpad]; exact s.latchedRegs_stride
  · exact horder

theorem InPhase.parsed {s : State} (h : InPhase s) (hpost : parsePostcheck s.latchHeader = none) :
    InPhase s.parsed := by
  have hflag : ∀ f, s.parsed.flag f = if f = .hdrValid then true else s.flag f := fun f =>
    State.flag_setFlag _ _ _ _
  have hlatched : ReservedZero s.latchHeader.regs := h.reserved.latchedRegs
  refine ⟨h.mem, hlatched.setFlag .hdrValid true, (hflag .done).trans h.done, (hflag .err).trans h.err, h.errcode,
    fun _ => hflag .hdrValid, ?_, geometryLatched_parsed s hpost⟩
  rw [hflag, hflag]; exact h.gridPlanes

theorem InPhase.parsePhase {s u : State} (h : InPhase s) (hhdr : s.flag .hdrValid = false)
    (hu : (parsePhase s).endsIn u) : InPhase u := by
  rcases parsePhase_endsIn s u hu with rfl | rfl | ⟨hpost, rfl⟩
  · exact h
  · exact h.latchHeader hhdr
  · exact h.parsed hpost

/-! ## UNPACK -/

theorem InPhase.unpackEffects {s : State} (h : InPhase s) (hcheck : unpackCheck s = none) :
    InPhase (unpackEffects s) := by
  have hflag : ∀ f, (Machine.unpackEffects s).flag f = if f = .planesValid then true
      else if f = .uflow then s.flag .uflow || s.underflows else s.flag f := fun f => by
    rw [Machine.unpackEffects, State.flag_setFlag, State.flag_setFlag]; rfl
  have hhdr := (unpackCheck_none s hcheck).1
  have hreserved : ReservedZero (s.setMem s.planesWritten).regs := h.reserved
  refine ⟨unpackEffects_wf s h.mem hcheck, (hreserved.setFlag .uflow _).setFlag .planesValid true,
    (hflag .done).trans h.done, (hflag .err).trans h.err, h.errcode, fun _ => (hflag .hdrValid).trans hhdr,
    fun _ => hflag .planesValid, h.geometry.congr (by rw [hflag]; exact id) rfl rfl rfl rfl rfl rfl⟩

theorem InPhase.unpackPhase {s u : State} (h : InPhase s) (hu : (unpackPhase s).endsIn u) : InPhase u := by
  rcases unpackPhase_endsIn s u hu with rfl | ⟨hcheck, rfl⟩
  · exact h
  · exact h.unpackEffects hcheck

/-- A legal geometry is made of whole groups and cells. -/
theorem InPhase.unpackPhase_ne_fault {s : State} (h : InPhase s) (why : Fault) :
    Machine.unpackPhase s ≠ .fault why := by
  rcases unpackPhase_cases s with ⟨_, -, hp⟩ | ⟨hcheck, hframe, -⟩ | ⟨-, -, hp⟩
  · rw [hp]; exact PhaseResult.noConfusion
  · have hlegal := h.geometry.legal (unpackCheck_none s hcheck).1
    simp only [State.geometryLegal, Bool.and_eq_true] at hlegal
    obtain ⟨⟨⟨hw, hh⟩, -⟩, -⟩ := hlegal
    rw [State.frameDefined, hw, hh] at hframe
    cases hframe
  · rw [hp]; exact PhaseResult.noConfusion

/-! ## SAMPLE -/

theorem InPhase.sampleEffects {s : State} (h : InPhase s) (hcheck : sampleCheck s = none) :
    InPhase (sampleEffects s) := by
  have hflag : ∀ f, (Machine.sampleEffects s).flag f = if f = .gridValid then true
      else if f = .div0 then s.flag .div0 || s.zeroDenominator else s.flag f := fun f => by
    rw [Machine.sampleEffects, State.flag_setFlag, State.flag_setFlag]; rfl
  obtain ⟨hhdr, hplanes, -⟩ := sampleCheck_none s hcheck
  have hreserved : ReservedZero ((s.setRegs s.middleRegs).setMem s.tableWritten).regs :=
    ⟨h.reserved.ctrl, h.reserved.mode, h.reserved.statusMid, h.reserved.statusHigh, h.reserved.errcode,
      h.reserved.blackLevel, h.reserved.fmtCodes, h.reserved.hdrBayer, h.reserved.bayerOrder⟩
  exact ⟨sampleEffects_wf s h.mem hcheck, (hreserved.setFlag .div0 _).setFlag .gridValid true,
    (hflag .done).trans h.done, (hflag .err).trans h.err, h.errcode, fun _ => (hflag .hdrValid).trans hhdr,
    fun _ => (hflag .planesValid).trans hplanes, h.geometry.congr (by rw [hflag]; exact id) rfl rfl rfl rfl rfl rfl⟩

theorem InPhase.samplePhase {s u : State} (h : InPhase s) (hu : (samplePhase s).endsIn u) : InPhase u := by
  rcases samplePhase_endsIn s u hu with rfl | ⟨hcheck, rfl⟩
  · exact h
  · exact h.sampleEffects hcheck

/-- A legal geometry has a grid whose samples all lie in the planes. -/
theorem GeometryLatched.gridDefined {s : State} (h : GeometryLatched s) (hhdr : s.flag .hdrValid = true) :
    s.gridDefined = true := by
  have hlegal := h.legal hhdr
  simp only [State.geometryLegal, Bool.and_eq_true, decide_eq_true_eq] at hlegal
  obtain ⟨⟨-, hcols⟩, hrows⟩ := hlegal
  have hw : s.width < 65536 := (s.regs.hdrDim.extractLsb' 0 16).isLt
  have hh : s.height < 65536 := (s.regs.hdrDim.extractLsb' 16 16).isLt
  have hch : s.regs.chDim.toNat = s.width / 2 + 65536 * (s.height / 2) := by
    rw [h.chDim hhdr, pairWord_toNat _ _ (by omega) (by omega)]
  have hgrid : s.regs.gridDim.toNat = (s.width / 2 + 31) / 32 + 65536 * ((s.height / 2 + 31) / 32) := by
    rw [h.gridDim hhdr, gridOf_eq, gridOf_eq, pairWord_toNat _ _ (by omega) (by omega)]
  refine gridDefined_of_dims s ?_ ?_ ?_
  · rw [chW, hch]; omega
  · rw [chH, hch]; omega
  · rw [grW, chW, hch, hgrid]; omega

theorem InPhase.samplePhase_ne_fault {s : State} (h : InPhase s) (why : Fault) :
    Machine.samplePhase s ≠ .fault why := by
  rcases samplePhase_cases s with ⟨_, -, hp⟩ | ⟨hcheck, hgrid, -⟩ | ⟨-, -, hp⟩
  · rw [hp]; exact PhaseResult.noConfusion
  · exact absurd (hgrid.symm.trans (h.geometry.gridDefined (sampleCheck_none s hcheck).1)) Bool.false_ne_true
  · rw [hp]; exact PhaseResult.noConfusion

/-! ## Any command -/

theorem InPhase.runPhases {s u : State} (h : InPhase s) (hhdr : s.flag .hdrValid = false)
    (hu : (runPhases s).2.endsIn u) : InPhase u := by
  rcases runPhases_endsIn s u hu with h1 | ⟨s1, h1, h2 | ⟨s2, h2, h3⟩⟩
  · exact h.parsePhase hhdr h1
  · exact (h.parsePhase hhdr (.inl h1)).unpackPhase h2
  · exact ((h.parsePhase hhdr (.inl h1)).unpackPhase (.inl h2)).samplePhase h3

theorem InPhase.runPhases_ne_fault {s : State} (h : InPhase s) (hhdr : s.flag .hdrValid = false) (why : Fault) :
    (Machine.runPhases s).2 ≠ .fault why := by
  rcases runPhases_cases s with ⟨_, _, -, hr⟩ | ⟨s1, h1, ⟨_, _, -, hr⟩ | ⟨f, h2, -⟩ | ⟨s2, h2, hr⟩⟩
  · rw [hr]; exact PhaseResult.noConfusion
  · rw [hr]; exact PhaseResult.noConfusion
  · exact absurd h2 ((h.parsePhase hhdr (.inl h1)).unpackPhase_ne_fault f)
  · rw [hr]; exact ((h.parsePhase hhdr (.inl h1)).unpackPhase (.inl h2)).samplePhase_ne_fault why

/-- PARSE and RUN are issued with HDR_VALID cleared (R242); the other commands ask nothing. -/
theorem InPhase.commandResult {s u : State} (h : InPhase s) (i : Instr)
    (hhdr : i = .parse ∨ i = .run → s.flag .hdrValid = false) (hu : (commandResult i s).endsIn u) : InPhase u := by
  cases i with
  | parse => exact h.parsePhase (hhdr (.inl rfl)) hu
  | unpack => exact h.unpackPhase hu
  | sample => exact h.samplePhase hu
  | run => exact h.runPhases (hhdr (.inr rfl)) hu
  | illegalOpcode | illegalBits => exact (PhaseResult.endsIn_error _ _ _).1 hu ▸ h
  | nop | softReset | regWrite | regRead => exact (PhaseResult.endsIn_ok _ _).1 hu ▸ h

theorem InPhase.commandResult_ne_fault {s : State} (h : InPhase s) (i : Instr)
    (hhdr : i = .parse ∨ i = .run → s.flag .hdrValid = false) (why : Fault) :
    Machine.commandResult i s ≠ .fault why := by
  cases i with
  | parse => exact parsePhase_ne_fault s why
  | unpack => exact h.unpackPhase_ne_fault why
  | sample => exact h.samplePhase_ne_fault why
  | run => exact h.runPhases_ne_fault (hhdr (.inr rfl)) why
  | _ => exact PhaseResult.noConfusion

/-- A command completes from the end of its phases, whatever its operands. -/
theorem InPhase.exec_command {s : State} (h : InPhase s) (i : Instr) (hi : isPhaseCommand i)
    (hhdr : i = .parse ∨ i = .run → s.flag .hdrValid = false) :
    ∃ t u, exec i s = .next t ∧ InPhase u
      ∧ (t = Machine.completeOk u ∨ ∃ issued phase code, t = Machine.completeError issued phase code u) := by
  obtain ⟨issued, phase, hexec⟩ := Machine.exec_command i s hi
  cases hr : Machine.commandResult i s with
  | ok u =>
    exact ⟨_, u, by rw [hexec, hr, complete], h.commandResult i hhdr (.inl hr), .inl rfl⟩
  | error u code =>
    exact ⟨_, u, by rw [hexec, hr, complete], h.commandResult i hhdr (.inr ⟨code, hr⟩), .inr ⟨issued, phase, code, rfl⟩⟩
  | fault why => exact absurd hr (h.commandResult_ne_fault i hhdr why)

end Sys2Proof.Machine
end

section
/-! The invariant through the host's transactions (R26, R240, R242). -/

namespace Sys2Proof.Machine

open Sys2Proof.Claims

/-! ## Configuration writes -/

/-- A configuration write keeps STATUS, ERRCODE and every latched and derived register. -/
theorem Regs.writeConfig_keeps (r : Regs) (data : Word) (x : Reg) :
    (r.writeConfig data x).status = r.status ∧ (r.writeConfig data x).errcode = r.errcode
      ∧ (r.writeConfig data x).hdrDim = r.hdrDim ∧ (r.writeConfig data x).hdrPad = r.hdrPad
      ∧ (r.writeConfig data x).chDim = r.chDim ∧ (r.writeConfig data x).gridDim = r.gridDim
      ∧ (r.writeConfig data x).stride = r.stride ∧ (r.writeConfig data x).bayerOrder = r.bayerOrder := by
  cases x with
  | planeBase c => fin_cases c <;> exact ⟨rfl, rfl, rfl, rfl, rfl, rfl, rfl, rfl⟩
  | _ => exact ⟨rfl, rfl, rfl, rfl, rfl, rfl, rfl, rfl⟩

/-- A write of a UFLOW_MODE never stores 3 (R23). -/
theorem legalMode_ne_three : ∀ m : BitVec 2, legalMode m ≠ 3#2 := by decide

/-- A configuration write keeps the reserved bits, which it does not write (R20, R240). -/
theorem ReservedZero.writeConfig {r : Regs} (h : ReservedZero r) (data : Word) (x : Reg) :
    ReservedZero (r.writeConfig data x) := by
  obtain ⟨hctrl, hmode, hmid, hhigh, herr, hblack, hfmt, hbayer, horder⟩ := h
  cases x with
  | ctrl =>
    obtain ⟨-, hmode', hreserved⟩ := writeConfig_ctrl_fields r data
    exact ⟨hreserved.trans hctrl, hmode' ▸ legalMode_ne_three _, hmid, hhigh, herr, hblack, hfmt, hbayer, horder⟩
  | blackLevel =>
    exact ⟨hctrl, hmode, hmid, hhigh, herr, (writeConfig_blackLevel_fields r data).2.trans hblack, hfmt, hbayer, horder⟩
  | fmtCodes =>
    exact ⟨hctrl, hmode, hmid, hhigh, herr, hblack, (writeConfig_fmtCodes_fields r data).2.trans hfmt, hbayer, horder⟩
  | planeBase c => fin_cases c <;> exact ⟨hctrl, hmode, hmid, hhigh, herr, hblack, hfmt, hbayer, horder⟩
  | _ => exact ⟨hctrl, hmode, hmid, hhigh, herr, hblack, hfmt, hbayer, horder⟩

theorem Inv.writeConfig {s : State} (h : Inv s) (hidle : s.flag .busy = false) (data : Word) (x : Reg) :
    Inv (s.setRegs (s.regs.writeConfig data x)) := by
  obtain ⟨hstatus, herrcode, hdim, hpad, hch, hgrid, hstride, horder⟩ := s.regs.writeConfig_keeps data x
  have hflag : ∀ f, (s.setRegs (s.regs.writeConfig data x)).flag f = s.flag f := fun f =>
    congrArg (statusFlag · f) hstatus
  exact ⟨h.mem, h.reserved.writeConfig data x, h.flags.congr (fun f _ _ _ => hflag f) herrcode,
    .of_idle ((hflag .busy).trans hidle),
    h.geometry.congr (by rw [hflag]; exact id) hdim hpad hch hgrid hstride horder⟩

/-! ## A write of STATUS -/

/-- A write of STATUS only clears DONE and ERR, ERRCODE with ERR, and keeps the validity flags. -/
theorem Inv.writeStatus {s : State} (h : Inv s) (hidle : s.flag .busy = false) (data : Word) :
    Inv (writeStatus data s) := by
  have hbit := writeStatus_bit data s
  have hbusy : (Machine.writeStatus data s).flag .busy = s.flag .busy := hbit 0
  have hdone : (Machine.writeStatus data s).flag .done = true → s.flag .done = true := fun hd => by
    have hd' := (hbit 1).symm.trans hd
    split_ifs at hd'; exact hd'
  have herr : (Machine.writeStatus data s).flag .err = if data.getLsbD 2 = true then false else s.flag .err :=
    (hbit 2).trans (if_congr (and_iff_right (by decide)) rfl rfl)
  have hhdr : (Machine.writeStatus data s).flag .hdrValid = s.flag .hdrValid := hbit 3
  have hplanes : (Machine.writeStatus data s).flag .planesValid = s.flag .planesValid := hbit 4
  have hgrid : (Machine.writeStatus data s).flag .gridValid = s.flag .gridValid := hbit 5
  have herrcode : (Machine.writeStatus data s).regs.errcode
      = if data.getLsbD 2 = true then 0#32 else s.regs.errcode := by
    rw [writeStatus_eq]; rfl
  have hidle' := hbusy.trans hidle
  refine ⟨?mem, ?reserved, ⟨fun hd => ?doneErr, fun hb => ?busyDone, fun hb => ?busyErr, fun he => ?codeZero,
    by rw [hplanes, hhdr]; exact h.flags.planesHdr, by rw [hgrid, hplanes]; exact h.flags.gridPlanes⟩,
    .of_idle hidle', ?geometry⟩
  case mem => rw [writeStatus_eq]; exact h.mem
  case reserved =>
    have hstatus := h.reserved.setStatus_of_bits (statusAfterWrite s.regs.status data) fun i hi => by
      rw [getLsbD_statusAfterWrite, w1cMask_bit, decide_eq_false (by omega)]; simp
    rw [writeStatus_eq]
    refine hstatus.setErrcode _ ?_
    split_ifs
    · decide
    · exact h.reserved.errcode
  case doneErr => rw [herr, h.flags.doneErr (hdone hd), ite_self]
  case busyDone => exact absurd (hidle'.symm.trans hb) Bool.false_ne_true
  case busyErr => exact absurd (hidle'.symm.trans hb) Bool.false_ne_true
  case codeZero =>
    rw [herrcode]
    rw [herr] at he
    split_ifs at he ⊢ with hw
    · rfl
    · exact h.flags.codeZero he
  case geometry =>
    refine h.geometry.congr (by rw [hhdr]; exact id) ?_ ?_ ?_ ?_ ?_ ?_ <;> rw [writeStatus_eq] <;> rfl

/-! ## Issue -/

theorem acceptCommand_errcode (w : Word) (s : State) : (acceptCommand w s).regs.errcode = 0#32 := by
  rw [acceptCommand_eq]; rfl

theorem acceptCommand_pending (w : Word) (s : State) : (acceptCommand w s).pending = some w := by
  rw [acceptCommand_eq]; rfl

/-- The flags after an accepted word (R242). -/
theorem acceptCommand_flags (w : Word) (s : State) :
    (acceptCommand w s).flag .busy = true ∧ (acceptCommand w s).flag .done = false
      ∧ (acceptCommand w s).flag .err = false
      ∧ (acceptCommand w s).flag .hdrValid = (if w = 1#32 ∨ w = 4#32 then false else s.flag .hdrValid)
      ∧ (acceptCommand w s).flag .planesValid
          = (if w = 1#32 ∨ w = 2#32 ∨ w = 4#32 then false else s.flag .planesValid)
      ∧ (acceptCommand w s).flag .gridValid
          = (if w = 1#32 ∨ w = 2#32 ∨ w = 3#32 ∨ w = 4#32 then false else s.flag .gridValid) := by
  have hbit : ∀ f : Flag, (acceptCommand w s).flag f = _ := fun f =>
    acceptCommand_bit w s (flagBit f) (.inl ((flagBit_lt f).trans (by decide)))
  simp only [hbit, flagBit]
  simp [State.flag, statusFlag, flagBit]

/-- The command that an accepted word starts. -/
theorem acceptCommand_running (w : Word) (s : State) :
    (acceptCommand w s).runningCommand = some (decodeCommand w) :=
  runningCommand_busy _ w (acceptCommand_flags w s).1 (acceptCommand_pending w s)

/-- Issue clears the flags of the outcome before and of the results it replaces, and so meets the invariant. -/
theorem Inv.acceptCommand {s : State} (h : Inv s) (w : Word) (hw : w ≠ 0x0000000F#32) : Inv (acceptCommand w s) := by
  obtain ⟨-, hdone, herr, hhdr, hplanes, hgrid⟩ := acceptCommand_flags w s
  obtain ⟨hparse, hunpack, hsample, hrun, -⟩ := decodeCommand_iff w
  have hrunning := acceptCommand_running w s
  have herrcode := acceptCommand_errcode w s
  refine ⟨?mem, ?reserved, ⟨fun _ => herr, fun _ => hdone, fun _ => herr, fun _ => herrcode, ?planesHdr, ?gridPlanes⟩,
    ⟨fun _ => ⟨w, acceptCommand_pending w s, hw, acceptCommand_curOp w s⟩, fun hi => ?hdr, fun hi => ?planes,
      fun hi => ?grid⟩, ?geometry⟩
  case mem => rw [acceptCommand_eq]; exact h.mem
  case reserved =>
    have hstatus := h.reserved.setStatus_of_bits (Machine.acceptCommand w s).regs.status fun i hi => by
      rw [acceptCommand_bit w s i (by omega), if_neg (by omega), if_neg (by omega), if_neg (by omega),
        if_neg (by omega)]
    rw [acceptCommand_eq]
    exact hstatus.setErrcode 0#32 (by decide)
  case planesHdr =>
    rw [hplanes, hhdr]
    split_ifs with hp hh hh
    · simp
    · simp
    · exact absurd (hh.imp_right .inr) hp
    · exact h.flags.planesHdr
  case gridPlanes =>
    rw [hgrid, hplanes]
    split_ifs with hg hp hp
    · simp
    · simp
    · exact absurd (hp.imp_right (.imp_right .inr)) hg
    · exact h.flags.gridPlanes
  case hdr =>
    rw [hrunning, Option.some_inj, Option.some_inj, hparse, hrun] at hi
    rw [hhdr, if_pos hi]
  case planes =>
    rw [hrunning, Option.some_inj, hunpack] at hi
    rw [hplanes, if_pos (.inr (.inl hi))]
  case grid =>
    rw [hrunning, Option.some_inj, hsample] at hi
    rw [hgrid, if_pos (.inr (.inr (.inl hi)))]
  case geometry =>
    refine h.geometry.congr (by rw [hhdr]; split_ifs <;> simp) ?_ ?_ ?_ ?_ ?_ ?_ <;> rw [acceptCommand_eq] <;> rfl

/-! ## Any transaction -/

/-- WBUSY enters no part of the invariant. -/
theorem Inv.setWbusy {s : State} (h : Inv s) : Inv (s.setFlag .wbusy true) := by
  have hflag : ∀ f : Flag, f ≠ .wbusy → (s.setFlag .wbusy true).flag f = s.flag f := fun f hf => by
    rw [State.flag_setFlag, if_neg hf]
  have hrunning := runningCommand_congr s (s.setFlag .wbusy true) (hflag .busy (by decide)) rfl
  refine ⟨h.mem, h.reserved.setFlag .wbusy true, h.flags.congr (fun f _ _ hf => hflag f hf) rfl, ⟨?_, ?_, ?_, ?_⟩,
    h.geometry.congr (by rw [hflag .hdrValid (by decide)]; exact id) rfl rfl rfl rfl rfl rfl⟩
  · rw [hflag .busy (by decide), State.curOp_setFlag]; exact h.pending.accepted
  · rw [hrunning, hflag .hdrValid (by decide)]; exact h.pending.hdr
  · rw [hrunning, hflag .planesValid (by decide)]; exact h.pending.planes
  · rw [hrunning, hflag .gridValid (by decide)]; exact h.pending.grid

theorem Inv.exec_regWrite {s : State} (h : Inv s) (idx : BitVec 10) (data : Word) :
    ∃ t, exec (.regWrite idx data) s = .next t ∧ Inv t := by
  obtain ⟨t, ht, hcases⟩ := exec_regWrite_cases s idx data
  refine ⟨t, ht, ?_⟩
  rcases hcases with rfl | rfl | ⟨-, rfl⟩ | ⟨-, hw, rfl⟩ | ⟨hidle, rfl⟩ | ⟨hidle, x, rfl⟩
  · exact h
  · exact h.resetBlock
  · exact h.setWbusy
  · exact h.acceptCommand data hw
  · exact h.writeStatus hidle data
  · exact h.writeConfig hidle data x

theorem Inv.exec_regRead {s : State} (h : Inv s) (idx : BitVec 10) :
    ∃ t, exec (.regRead idx) s = .next t ∧ Inv t := by
  obtain ⟨t, ht, rfl | ⟨v, rfl⟩⟩ := exec_regRead_cases s idx
  · exact ⟨_, ht, h.congr rfl rfl h.mem⟩
  · exact ⟨_, ht, h.congr rfl rfl h.mem⟩

end Sys2Proof.Machine
end

section
/-! The invariant through a step, and what follows from it: safety, completion and progress (R247, R260, R270). -/

namespace Sys2Proof.Machine

open Sys2Proof.Claims

/-- An outcome that keeps the invariant: a next state that meets it, or a refusal of what the host must not do. -/
def keepsInv : Host.Outcome State Fault Refusal → Prop
  | .next t => Inv t
  | .fault _ => False
  | .refused r => hostBreach r

theorem keepsInv.safe {o : Host.Outcome State Fault Refusal} (h : keepsInv o) : safeOutcome o := by
  cases o with
  | next => trivial
  | fault => exact h
  | refused => exact h

theorem keepsInv_of_next {o : Host.Outcome State Fault Refusal} (h : ∃ t, o = .next t ∧ Inv t) : keepsInv o := by
  obtain ⟨t, rfl, ht⟩ := h
  exact ht

theorem keepsInv.andThen {o : Host.Outcome State Fault Refusal} {k : State → Host.Outcome State Fault Refusal}
    (h : keepsInv o) (hk : ∀ t, Inv t → keepsInv (k t)) : keepsInv (andThen o k) := by
  cases o with
  | next t => exact hk t h
  | fault => exact h
  | refused => exact h

/-! ## The host's turn -/

theorem Inv.advanceLine {s : State} (h : Inv s) : Inv (advanceLine s) := h.congr rfl rfl h.mem

theorem Inv.setSchedule {s : State} (h : Inv s) (q : List Turn) : Inv (s.setSchedule q) := h.congr rfl rfl h.mem

theorem Inv.runPacket {s : State} (h : Inv s) (t : Packet) : keepsInv (runPacket t s) := by
  rcases decodePacket_cases t with ⟨-, hd⟩ | ⟨-, -, hd⟩ | ⟨-, -, -, hd⟩ | ⟨-, -, -, hd⟩ <;> rw [Machine.runPacket, hd]
  · exact .inl ⟨_, rfl⟩
  · exact keepsInv_of_next (h.exec_regWrite _ _)
  · exact .inl ⟨_, rfl⟩
  · exact keepsInv_of_next (h.exec_regRead _)

theorem Inv.hostStore {s : State} (h : Inv s) (a : Word) (v : Byte) : keepsInv (hostStore a v s) := by
  unfold Machine.hostStore
  split_ifs
  · exact .inr ⟨a, rfl⟩
  · exact h.congr rfl rfl (Memory.wf_write s.mem a.toNat v h.mem a.isLt)

theorem Inv.hostLoad {s : State} (h : Inv s) (a : Word) : Inv (hostLoad a s) := by
  unfold Machine.hostLoad
  split_ifs
  · exact h.congr rfl rfl h.mem
  · exact h.congr rfl rfl h.mem

theorem Inv.runLine {s : State} (h : Inv s) (l : Line) : keepsInv (runLine l s) := by
  cases l with
  | bus t => exact (h.runPacket t).andThen fun _ ht => ht.advanceLine
  | poll idx mask value =>
    refine (keepsInv_of_next (h.exec_regRead idx)).andThen fun t ht => ?_
    split_ifs
    · exact ht.advanceLine
    · exact ht
  | store a v => exact (h.hostStore a v).andThen fun _ ht => ht.advanceLine
  | load a => exact (h.hostLoad a).advanceLine

theorem Inv.hostTurn {s : State} (h : Inv s) : keepsInv (hostTurn s) := by
  cases hline : s.script[s.line]? with
  | some l => rw [hostTurn_of_line s l hline]; exact h.runLine l
  | none => rw [hostTurn_of_no_line s hline]; exact h

/-! ## The engine's turn -/

/-- A word other than SOFT_RESET's spells a command with a completion step. -/
theorem isPhaseCommand_decodeCommand (w : Word) (hw : w ≠ 0x0000000F#32) : isPhaseCommand (decodeCommand w) := by
  obtain ⟨-, -, -, -, hreset⟩ := decodeCommand_iff w
  have hspelled := (encode_decodeCommand w).1
  cases hi : decodeCommand w with
  | softReset => exact hw (hreset.1 hi)
  | regWrite | regRead => rw [hi] at hspelled; cases hspelled
  | _ => trivial

/-- While busy a command is in progress, with HDR_VALID clear where it will set it. -/
theorem Inv.command_in_progress {s : State} (h : Inv s) (hbusy : s.flag .busy = true) :
    ∃ w, s.pending = some w ∧ isPhaseCommand (decodeCommand w)
      ∧ (decodeCommand w = .parse ∨ decodeCommand w = .run → s.flag .hdrValid = false) := by
  obtain ⟨w, hpending, hw, -⟩ := h.pending.accepted hbusy
  refine ⟨w, hpending, isPhaseCommand_decodeCommand w hw, fun hi => h.pending.hdr ?_⟩
  rwa [runningCommand_busy s w hbusy hpending, Option.some_inj, Option.some_inj]

/-- While busy the engine's turn ends the phases of the command in progress, and completes it. -/
theorem Inv.engineTurn_busy {s : State} (h : Inv s) (hbusy : s.flag .busy = true) :
    ∃ t u, engineTurn s = .next t ∧ CommandKept s t ∧ InPhase u
      ∧ (t = completeOk u ∨ ∃ issued phase code, t = completeError issued phase code u) := by
  obtain ⟨w, hpending, hi, hhdr⟩ := h.command_in_progress hbusy
  obtain ⟨t, u, hexec, hu, ht⟩ := (h.inPhase hbusy).exec_command (decodeCommand w) hi hhdr
  exact ⟨t, u, (Machine.engineTurn_busy s w hbusy hpending).trans hexec, exec_command_kept _ s t hi hexec, hu, ht⟩

theorem Inv.engineTurn {s : State} (h : Inv s) : keepsInv (engineTurn s) := by
  cases hbusy : s.flag .busy with
  | false => rw [engineTurn_idle s hbusy]; exact h
  | true =>
    obtain ⟨t, u, hturn, -, hu, rfl | ⟨issued, phase, code, rfl⟩⟩ := h.engineTurn_busy hbusy
    · rw [hturn]; exact hu.completeOk
    · rw [hturn]; exact hu.completeError issued phase code

/-! ## A step -/

/-- A step is a turn of the host or of the engine, or a reset, in a state that differs in its schedule at most. -/
theorem step_turn (s : State) :
    ∃ q, step s = hostTurn (s.setSchedule q) ∨ step s = engineTurn (s.setSchedule q)
      ∨ step s = .next (resetBlock (s.setSchedule q)) := by
  cases hq : s.schedule with
  | nil =>
    have hsame : s.setSchedule [] = s := by rw [← hq]; rfl
    refine ⟨[], ?_⟩
    rw [hsame]
    cases hbusy : s.flag .busy with
    | true => exact .inr (.inl (step_unscheduled_busy s hq hbusy))
    | false => exact .inl (step_unscheduled_idle s hq hbusy)
  | cons turn q =>
    cases turn with
    | host => exact ⟨q, .inl (step_of_host s q hq)⟩
    | engine => exact ⟨q, .inr (.inl (step_of_engine s q hq))⟩
    | reset => exact ⟨q, .inr (.inr (step_of_reset s q hq))⟩

theorem Inv.step {s : State} (h : Inv s) : keepsInv (step s) := by
  obtain ⟨q, hstep | hstep | hstep⟩ := step_turn s <;> rw [hstep]
  · exact (h.setSchedule q).hostTurn
  · exact (h.setSchedule q).engineTurn
  · exact (h.setSchedule q).resetBlock

/-- Settles O44: `Inv.step`, at an outcome that is a next state. -/
theorem stepKeepsTheInvariant : Obligations.StepKeepsTheInvariant := by
  intro s t h hstep
  have hkept := h.step
  rwa [hstep] at hkept

/-- Settles O45: `Inv.step` again, which leaves no fault and only the host's two breaches. -/
theorem stepNeverFaults : Obligations.StepNeverFaults := fun _ h => h.step.safe

/-! ## Completion -/

/-- What a completion shows: BUSY clear, and DONE with ERRCODE 0, or ERR with a code (R260, R270). -/
theorem InPhase.completion_bits {u t : State} (h : InPhase u)
    (ht : t = Machine.completeOk u ∨ ∃ issued phase code, t = Machine.completeError issued phase code u) :
    stBit t 0 = false ∧ (stBit t 1 = !stBit t 2)
      ∧ (stBit t 2 = true ↔ t.regs.errcode.extractLsb' 0 8 ≠ 0#8) := by
  have hdone : stBit u 1 = false := h.done
  have herr : stBit u 2 = false := h.err
  rcases ht with rfl | ⟨issued, phase, code, rfl⟩
  · have hbit : ∀ i, stBit (Machine.completeOk u) i = _ := completeOk_bit u
    have hcode : (Machine.completeOk u).regs.errcode = 0#32 := h.errcode
    have hclear : stBit (Machine.completeOk u) 2 = false := (hbit 2).trans herr
    exact ⟨hbit 0, by rw [hclear]; exact hbit 1, by rw [hclear, hcode]; decide⟩
  · have hbit : ∀ i, stBit (Machine.completeError issued phase code u) i = _ := completeError_bit issued phase code u
    have hset : stBit (Machine.completeError issued phase code u) 2 = true := hbit 2
    refine ⟨hbit 0, ?_, ?_⟩
    · rw [hset]; exact (hbit 1).trans hdone
    · rw [completeError_errcode, errWord_code]; exact iff_of_true hset (errNumber_ne_zero code)

/-- Settles O46: the engine's turn completes, and a completion shows its outcome and keeps CUR_OP. -/
theorem completionEndsTheCommand : Obligations.CompletionEndsTheCommand := by
  intro s h hbusy hnone
  obtain ⟨t, u, hturn, hkept, hu, ht⟩ := h.engineTurn_busy hbusy
  obtain ⟨hidle, houtcome, hcode⟩ := hu.completion_bits ht
  exact ⟨t, (step_unscheduled_busy s hnone hbusy).trans hturn, hidle, houtcome, hcode,
    extract_eq_of_bits_eq _ _ 12 4 fun i hi _ => hkept.status i (by omega)⟩

/-! ## Progress -/

theorem andThen_next {o : Host.Outcome State Fault Refusal} {k : State → Host.Outcome State Fault Refusal} {t : State}
    (h : andThen o k = .next t) : ∃ v, o = .next v ∧ k v = .next t := by
  cases o with
  | next v => exact ⟨v, rfl, h⟩
  | fault | refused => cases h

/-- The host's turn leaves the events to come. -/
theorem runLine_schedule (l : Line) (s t : State) (h : runLine l s = .next t) : t.schedule = s.schedule := by
  cases l with
  | bus p =>
    obtain ⟨v, hv, hnext⟩ := andThen_next h
    obtain rfl := Host.Outcome.next.inj hnext
    cases hi : decodePacket p with
    | ok i => rw [runPacket, hi] at hv; exact (exec_hostKept i s v hv).schedule
    | error why => rw [runPacket, hi] at hv; cases hv
  | poll idx mask value =>
    obtain ⟨v, hv, hpoll⟩ := andThen_next h
    have hkept := (exec_hostKept _ s v hv).schedule
    obtain rfl := Host.Outcome.next.inj hpoll
    split_ifs
    · exact hkept
    · exact hkept
  | store a v =>
    obtain ⟨u, hu, hnext⟩ := andThen_next h
    obtain rfl := Host.Outcome.next.inj hnext
    unfold hostStore at hu
    split_ifs at hu
    obtain rfl := Host.Outcome.next.inj hu
    rfl
  | load a =>
    obtain rfl := Host.Outcome.next.inj h
    unfold hostLoad
    split_ifs <;> rfl

theorem hostTurn_schedule (s t : State) (h : hostTurn s = .next t) : t.schedule = s.schedule := by
  cases hline : s.script[s.line]? with
  | some l => rw [hostTurn_of_line s l hline] at h; exact runLine_schedule l s t h
  | none => rw [hostTurn_of_no_line s hline] at h; exact Host.Outcome.next.inj h ▸ rfl

theorem coreRun_succ_of_next (M : Host.Core) (k : Nat) (s t : M.State) (h : M.step s = .next t) :
    M.run (k + 1) s = M.run k t := by
  rw [Host.Core.run, h]

theorem coreRun_one_of_refused (M : Host.Core) (s : M.State) (r : M.Refusal) (h : M.step s = .refused r) :
    M.run 1 s = .refused r := by
  rw [Host.Core.run, h]

/-- Within `n` steps the block is idle, or the host has made a move it must not make. -/
def idleWithin (n : Nat) (s : State) : Prop :=
  ∃ k, k ≤ n ∧ ((∃ t, Host.Core.run Sys2Proof.core k s = .next t ∧ stBit t 0 = false)
    ∨ ∃ r, Host.Core.run Sys2Proof.core k s = .refused r ∧ hostBreach r)

theorem idleWithin_of_idle (n : Nat) (s : State) (h : stBit s 0 = false) : idleWithin n s :=
  ⟨0, n.zero_le, .inl ⟨s, rfl, h⟩⟩

theorem idleWithin_of_next (n : Nat) (s t : State) (hstep : step s = .next t) (h : idleWithin n t) :
    idleWithin (n + 1) s := by
  obtain ⟨k, hk, hrun⟩ := h
  exact ⟨k + 1, Nat.succ_le_succ hk, by rwa [coreRun_succ_of_next Sys2Proof.core k s t hstep]⟩

theorem idleWithin_of_refused (n : Nat) (s : State) (r : Refusal) (hstep : step s = .refused r) (h : hostBreach r) :
    idleWithin (n + 1) s :=
  ⟨1, by omega, .inr ⟨r, coreRun_one_of_refused Sys2Proof.core s r hstep, h⟩⟩

/-- A step that is the engine's turn ends the command. -/
theorem Inv.idleWithin_of_engineTurn {s u : State} (h : Inv u) (hbusy : u.flag .busy = true)
    (hstep : Machine.step s = Machine.engineTurn u) (n : Nat) : idleWithin (n + 1) s := by
  obtain ⟨t, v, hturn, -, hv, ht⟩ := h.engineTurn_busy hbusy
  exact idleWithin_of_next n s t (hstep.trans hturn) (idleWithin_of_idle n t (hv.completion_bits ht).1)

/-- A reset leaves the block idle (R245). -/
theorem resetBlock_busy (s : State) : stBit (resetBlock s) 0 = false := by
  rw [stBit, (resetBlock_spec s).1]; rfl

/-- Each scheduled event either leaves the block busy with one event less, or ends the matter. -/
theorem Inv.idleWithin_schedule (q : List Turn) {s : State} (h : Inv s) (hbusy : s.flag .busy = true)
    (hq : s.schedule = q) : idleWithin (q.length + 1) s := by
  induction q generalizing s with
  | nil => exact h.idleWithin_of_engineTurn hbusy (step_unscheduled_busy s hq hbusy) 0
  | cons turn q ih =>
    cases turn with
    | engine => exact (h.setSchedule q).idleWithin_of_engineTurn hbusy (step_of_engine s q hq) _
    | reset => exact idleWithin_of_next _ s _ (step_of_reset s q hq) (idleWithin_of_idle _ _ (resetBlock_busy _))
    | host =>
      have hstep := step_of_host s q hq
      have hkept := (h.setSchedule q).hostTurn
      cases hturn : Machine.hostTurn (s.setSchedule q) with
      | fault why => rw [hturn] at hkept; exact hkept.elim
      | refused r => rw [hturn] at hkept; exact idleWithin_of_refused _ s r (hstep.trans hturn) hkept
      | next t =>
        rw [hturn] at hkept
        refine idleWithin_of_next _ s t (hstep.trans hturn) ?_
        cases hbusy' : t.flag .busy with
        | false => exact idleWithin_of_idle _ t hbusy'
        | true => exact ih hkept hbusy' (hostTurn_schedule _ t hturn)

/-- Settles O47: induction on the schedule. -/
theorem noCommandHangs : Obligations.NoCommandHangs := fun s h hbusy => h.idleWithin_schedule s.schedule hbusy rfl

end Sys2Proof.Machine
end

section
/-! NOP and the ILLEGAL words (R243, R246, R271). -/

namespace Sys2Proof.Machine

open Sys2Proof.Claims

theorem exec_nop (s : State) : exec .nop s = .next (completeOk s) := rfl

theorem exec_illegalOpcode (op : BitVec 4) (s : State) :
    exec (.illegalOpcode op) s = .next (completeError op op .illegal s) := rfl

theorem exec_illegalBits (rsv : BitVec 28) (op : BitVec 4) (s : State) :
    exec (.illegalBits rsv op) s = .next (completeError op op .illegal s) := rfl

/-- With ERR clear the interrupt line shows DONE through its enable. -/
theorem completeOk_irq (s : State) (h : stBit s 2 = false) : (completeOk s).irq = s.regs.ctrl.getLsbD 0 := by
  have hdone : (completeOk s).flag .done = true := completeOk_bit s 1
  have herr : (completeOk s).flag .err = false := (completeOk_bit s 2).trans h
  rw [State.irq, hdone, herr, Bool.true_and, Bool.false_and, Bool.or_false]
  rfl

/-- With DONE clear it shows ERR through its enable. -/
theorem completeError_irq (issued phase : BitVec 4) (code : ErrCode) (s : State) (h : stBit s 1 = false) :
    (completeError issued phase code s).irq = s.regs.ctrl.getLsbD 1 := by
  have hdone : (completeError issued phase code s).flag .done = false := (completeError_bit issued phase code s 1).trans h
  have herr : (completeError issued phase code s).flag .err = true := completeError_bit issued phase code s 2
  rw [State.irq, hdone, herr, Bool.false_and, Bool.true_and, Bool.false_or]
  rfl

/-- Settles O25: NOP is a completion and no phase. -/
theorem nopCompletesWithDone : Obligations.NopCompletesWithDone := fun s =>
  ⟨completeOk s, exec_nop s, completeOk_eq s, completeOk_bit s, completeOk_irq s⟩

/-- Settles O26: either ILLEGAL word is a completion with the error ILLEGAL, whatever its reserved bits. -/
theorem illegalWordsCompleteWithError : Obligations.IllegalWordsCompleteWithError := fun s rsv op =>
  ⟨⟨_, exec_illegalOpcode op s, endsInError_completeError s op op .illegal, completeError_irq op op .illegal s⟩,
    ⟨_, exec_illegalBits rsv op s, endsInError_completeError s op op .illegal, completeError_irq op op .illegal s⟩⟩

end Sys2Proof.Machine
end

section
/-! The correction in range (R173, R178), and the order table (R200). -/

namespace Sys2Proof.Machine

open Sys2Proof.Claims

/-- In range the correction does not decrease in the pixel. -/
theorem corr_mono (r r' b : Nat) (m : UflowMode) (hb : b ≤ 1022) (hr : b ≤ r) (hle : r ≤ r') (hr' : r' ≤ 1023) :
    (corr r b m).toNat ≤ (corr r' b m).toNat := by
  rw [corr_toNat_of_le r b hr (hle.trans hr') hb, corr_toNat_of_le r' b (hr.trans hle) hr' hb]
  exact Nat.div_le_div_right (Nat.mul_le_mul_right _ (Nat.sub_le_sub_right hle b))

/-- In range the correction does not pass full scale. -/
theorem corr_le_maxValue (r b : Nat) (m : UflowMode) (hb : b ≤ 1022) (hr : b ≤ r) (hmax : r ≤ 1023) :
    (corr r b m).toNat ≤ 1023 := by
  rw [corr_toNat_of_le r b hr hmax hb]; exact blc_le r b hb hmax

theorem corr_black (b : Nat) (m : UflowMode) : corr b b m = 0#16 := by
  rw [corr_of_le b b le_rfl, blc, Nat.sub_self, Nat.zero_mul, Nat.zero_div]

theorem corr_maxValue (b : Nat) (m : UflowMode) (hb : b ≤ 1022) : corr 1023 b m = 1023#16 := by
  rw [corr_of_le 1023 b (by omega), blc, Nat.mul_comm, Nat.mul_div_cancel _ (by omega)]

theorem corr_zero_level (r : Nat) (m : UflowMode) : corr r 0 m = BitVec.ofNat 16 r := by
  rw [corr_of_le r 0 r.zero_le, blc, Nat.sub_zero, Nat.sub_zero, Nat.mul_div_cancel _ (by decide)]

/-- Clamping gives 0 below the black level, and is in range above it. -/
theorem corr_clamp_le (r b : Nat) (hb : b ≤ 1022) (hr : r ≤ 1023) : (corr r b .clamp).toNat ≤ 1023 := by
  rcases Nat.lt_or_ge r b with hlt | hge
  · rw [corr_clamp_of_lt r b hlt]; decide
  · exact corr_le_maxValue r b .clamp hb hge hr

/-- Settles O32: one lemma for each law. -/
theorem blackLevelCorrectionLaws : Obligations.BlackLevelCorrectionLaws := fun b hb m =>
  ⟨fun r r' hr hle hr' => ⟨corr_mono r r' b m hb hr hle hr', corr_le_maxValue r' b m hb (hr.trans hle) hr'⟩,
    corr_black b m, corr_maxValue b m hb, fun r _ => corr_zero_level r m, fun r hr => corr_clamp_le r b hb hr⟩

/-- Settles O37: the four rows of the table, four planes each. -/
theorem orderTableIsThePermutation : Obligations.OrderTableIsThePermutation := by
  unfold Obligations.OrderTableIsThePermutation
  decide

end Sys2Proof.Machine
end

section
/-! SAMPLE over a uniform plane (R215). -/

namespace Sys2Proof.Machine

open Sys2Proof.Claims

theorem sum_map_range_const (n b : Nat) (f : Nat → Nat) (h : ∀ i, i < n → f i = b) :
    ((List.range n).map f).sum = n * b := by
  rw [List.map_congr_left fun i hi => h i (List.mem_range.1 hi), List.map_const', List.length_range,
    List.sum_replicate, smul_eq_mul]

/-- The brightness of a uniform plane is its sample shifted (R201): the whole patch lies in the plane. -/
theorem brightness_of_uniform (s : State) (c : Fin 4) (v : Nat) (hw : 9 ≤ chW s) (hh : 9 ≤ chH s)
    (hv : ∀ r k, r < chH s → k < chW s → sampleOf s (chW s) c r k = v) : brightness s c = 32 * v := by
  have hrow : ∀ i, i < 9 → ((List.range 9).map fun j =>
      sampleOf s (chW s) c (chH s / 2 + i - 4) (chW s / 2 + j - 4)).sum = 9 * v := fun i hi =>
    sum_map_range_const 9 v _ fun j hj => hv _ _ (by omega) (by omega)
  rw [brightness, sum_map_range_const 9 (9 * v) _ hrow]
  omega

/-- Every sample sum of a uniform plane counts its sample as often as the numerator counts the brightness (R204,
R205). -/
theorem gridNum_of_uniform (s : State) (c : Fin 4) (v kr j : Nat) (hw : 9 ≤ chW s) (hh : 9 ≤ chH s)
    (hgw : grW s = (chW s + 31) / 32) (hj : j < grW s)
    (hv : ∀ r k, r < chH s → k < chW s → sampleOf s (chW s) c r k = v) :
    gridNum s c j = 32 * gridSum s c kr j := by
  have hrow : walkRow s kr < chH s := by unfold walkRow; omega
  rw [gridNum, gridSum, brightness_of_uniform s c v hw hh hv]
  split_ifs with hedge
  · rw [hv _ _ hrow (by omega), hv _ _ hrow (by omega)]; omega
  · rw [hv _ _ hrow (by omega), hv _ _ hrow (by omega), hv _ _ hrow (by omega)]; omega

/-- The ratio 32 is the lower clip, and the gain of a zero ratio over a zero sum (R206, R207). -/
theorem gain_unity (den : Nat) : gain (32 * den) den = 32 := by
  rcases Nat.eq_zero_or_pos den with rfl | hpos
  · exact gain_zero_sum 0
  · exact gain_between _ _ 32 le_rfl (by decide) le_rfl (by omega)

/-- Settles O40: the numerator is 32 times the sum, at every point of the grid. -/
theorem uniformPlaneGivesUnityGain : Obligations.UniformPlaneGivesUnityGain := by
  intro s t c v hfits hgw hgh hv hhdr hvalid hexec l kr j hl hkr hj
  obtain rfl := Host.Outcome.next.inj ((exec_sample_of_fits s hhdr hvalid hfits hgw hgh).symm.trans hexec)
  obtain ⟨hw, hh, -⟩ := hfits
  refine (byteAt_sampleEffects s l kr j hkr hj hw hh).trans ?_
  rw [hl, gridNum_of_uniform s c v kr j hw hh hgw hj hv, gain_unity]

end Sys2Proof.Machine
end

section
/-! RUN as PARSE, UNPACK and SAMPLE one after the other (R244): a completion in between changes only DONE and BUSY,
which no phase looks at. -/

namespace Sys2Proof.Machine

open Sys2Proof.Claims

/-! ## What a completion in between changes -/

theorem completeOk_completeOk (s : State) : completeOk (completeOk s) = completeOk s := by
  have hstatus : (completeOk (completeOk s)).regs.status = (completeOk s).regs.status := by
    refine BitVec.eq_of_getLsbD_eq fun i _ => ?_
    simp only [completeOk_bit]
    split_ifs <;> rfl
  rw [completeOk_eq (completeOk s), hstatus]; rfl

theorem unpackEffects_eq (s : State) :
    unpackEffects s = (s.setMem s.planesWritten).setRegs (s.regs.setStatus (unpackEffects s).regs.status) := rfl

theorem sampleEffects_eq (s : State) :
    sampleEffects s
      = (s.setMem s.tableWritten).setRegs (s.middleRegs.setStatus (sampleEffects s).regs.status) := rfl

theorem unpackEffects_completeOk (s : State) : unpackEffects (completeOk s) = completeOk (unpackEffects s) := by
  have hstatus : (unpackEffects (completeOk s)).regs.status = (completeOk (unpackEffects s)).regs.status := by
    refine BitVec.eq_of_getLsbD_eq fun i _ => ?_
    have hframe : (completeOk s).underflows = s.underflows := rfl
    have hsticky : stBit (completeOk s) 6 = stBit s 6 := completeOk_bit s 6
    rw [unpackEffects_bit, completeOk_bit, unpackEffects_bit, hframe, hsticky]
    by_cases hset : i = 4
    · subst hset; rfl
    · by_cases hflag : i = 6
      · subst hflag; rfl
      · simp only [hset, hflag, if_false]; exact completeOk_bit s i
  rw [unpackEffects_eq, hstatus]; rfl

theorem sampleEffects_completeOk (s : State) : sampleEffects (completeOk s) = completeOk (sampleEffects s) := by
  have hstatus : (sampleEffects (completeOk s)).regs.status = (completeOk (sampleEffects s)).regs.status := by
    refine BitVec.eq_of_getLsbD_eq fun i _ => ?_
    have hgrid : (completeOk s).zeroDenominator = s.zeroDenominator := rfl
    have hsticky : stBit (completeOk s) 7 = stBit s 7 := completeOk_bit s 7
    rw [sampleEffects_bit, completeOk_bit, sampleEffects_bit, hgrid, hsticky]
    by_cases hset : i = 5
    · subst hset; rfl
    · by_cases hflag : i = 7
      · subst hflag; rfl
      · simp only [hset, hflag, if_false]; exact completeOk_bit s i
  rw [sampleEffects_eq, hstatus]; rfl

theorem unpackCheck_completeOk (s : State) : unpackCheck (completeOk s) = unpackCheck s := by
  have hhdr : (completeOk s).flag .hdrValid = s.flag .hdrValid := completeOk_bit s 3
  unfold unpackCheck
  rw [hhdr]; rfl

theorem sampleCheck_completeOk (s : State) : sampleCheck (completeOk s) = sampleCheck s := by
  have hhdr : (completeOk s).flag .hdrValid = s.flag .hdrValid := completeOk_bit s 3
  have hplanes : (completeOk s).flag .planesValid = s.flag .planesValid := completeOk_bit s 4
  unfold sampleCheck
  rw [hhdr, hplanes]; rfl

/-! ## The phases one after the other -/

theorem unpackPhase_of_fits (s : State) (hhdr : stBit s 3 = true)
    (hfits : unpackFits s (imgW s) (imgH s) s.regs.stride.toNat) : unpackPhase s = .ok (unpackEffects s) := by
  have hexec := exec_unpack_of_fits s hhdr hfits
  rcases unpackPhase_cases s with ⟨code, hcode, -⟩ | ⟨-, -, hp⟩ | ⟨-, -, hp⟩
  · rw [unpackCheck_of_fits s hhdr hfits] at hcode; cases hcode
  · rw [exec_unpack, hp, complete] at hexec; cases hexec
  · exact hp

theorem samplePhase_of_fits (s : State) (hhdr : stBit s 3 = true) (hvalid : stBit s 4 = true)
    (hfits : sampleFits s (chW s) (chH s)) (hgw : grW s = (chW s + 31) / 32) (hgh : grH s = (chH s + 31) / 32) :
    samplePhase s = .ok (sampleEffects s) := by
  have hexec := exec_sample_of_fits s hhdr hvalid hfits hgw hgh
  rcases samplePhase_cases s with ⟨code, hcode, -⟩ | ⟨-, -, hp⟩ | ⟨-, -, hp⟩
  · rw [sampleCheck_of_fits s hhdr hvalid hfits hgw hgh] at hcode; cases hcode
  · rw [exec_sample, hp, complete] at hexec; cases hexec
  · exact hp

/-- UNPACK ends alike in a RUN and as a command after the completion of PARSE. -/
theorem unpackPhase_completeOk (s : State) :
    (∃ code, unpackPhase s = .error s code ∧ unpackPhase (completeOk s) = .error (completeOk s) code)
      ∨ (∃ why, unpackPhase s = .fault why ∧ unpackPhase (completeOk s) = .fault why)
      ∨ (unpackPhase s = .ok (unpackEffects s)
        ∧ unpackPhase (completeOk s) = .ok (completeOk (unpackEffects s))) := by
  have hframe : (completeOk s).frameDefined = s.frameDefined := rfl
  unfold unpackPhase
  rw [unpackCheck_completeOk, hframe, unpackEffects_completeOk]
  cases unpackCheck s with
  | some code => exact .inl ⟨code, rfl, rfl⟩
  | none =>
    cases s.frameDefined with
    | true => exact .inr (.inr ⟨rfl, rfl⟩)
    | false => exact .inr (.inl ⟨_, rfl, rfl⟩)

theorem samplePhase_completeOk (s : State) :
    (∃ code, samplePhase s = .error s code ∧ samplePhase (completeOk s) = .error (completeOk s) code)
      ∨ (∃ why, samplePhase s = .fault why ∧ samplePhase (completeOk s) = .fault why)
      ∨ (samplePhase s = .ok (sampleEffects s)
        ∧ samplePhase (completeOk s) = .ok (completeOk (sampleEffects s))) := by
  have hgrid : (completeOk s).gridDefined = s.gridDefined := rfl
  unfold samplePhase
  rw [sampleCheck_completeOk, hgrid, sampleEffects_completeOk]
  cases sampleCheck s with
  | some code => exact .inl ⟨code, rfl, rfl⟩
  | none =>
    cases s.gridDefined with
    | true => exact .inr (.inr ⟨rfl, rfl⟩)
    | false => exact .inr (.inl ⟨_, rfl, rfl⟩)

/-- The commands UNPACK and SAMPLE after a completion succeed where the phases do without it. -/
theorem exec_unpack_completeOk_of_ok (s : State) (h : unpackPhase s = .ok (unpackEffects s)) :
    exec .unpack (completeOk s) = .next (completeOk (unpackEffects s)) := by
  rcases unpackPhase_completeOk s with ⟨_, hp, -⟩ | ⟨_, hp, -⟩ | ⟨-, hp⟩
  · cases h.symm.trans hp
  · cases h.symm.trans hp
  · rw [exec_unpack, hp, complete, completeOk_completeOk]

theorem exec_sample_completeOk_of_ok (s : State) (h : samplePhase s = .ok (sampleEffects s)) :
    exec .sample (completeOk s) = .next (completeOk (sampleEffects s)) := by
  rcases samplePhase_completeOk s with ⟨_, hp, -⟩ | ⟨_, hp, -⟩ | ⟨-, hp⟩
  · cases h.symm.trans hp
  · cases h.symm.trans hp
  · rw [exec_sample, hp, complete, completeOk_completeOk]

/-- On a valid capture that fits, UNPACK's phase succeeds after PARSE's. -/
theorem unpackPhase_parsed_of_fits (s : State)
    (hfits : unpackFits s (hdr16 s 32) (hdr16 s 34) (strideValue (hdr16 s 32) (hdr16 s 36))) :
    unpackPhase s.parsed = .ok (unpackEffects s.parsed) := by
  refine unpackPhase_of_fits s.parsed (parsed_bit s 3) ?_
  rw [parsed_imgW, parsed_imgH, parsed_stride]
  exact hfits

/-- And SAMPLE's phase after both. -/
theorem samplePhase_unpacked_of_fits (s : State) (hfits : sampleFits s (hdr16 s 32 / 2) (hdr16 s 34 / 2)) :
    samplePhase (unpackEffects s.parsed) = .ok (sampleEffects (unpackEffects s.parsed)) := by
  have hcw : chW (unpackEffects s.parsed) = hdr16 s 32 / 2 := parsed_chW s
  have hch : chH (unpackEffects s.parsed) = hdr16 s 34 / 2 := parsed_chH s
  have hgw : grW (unpackEffects s.parsed) = (hdr16 s 32 / 2 + 31) / 32 := parsed_grW s
  have hgh : grH (unpackEffects s.parsed) = (hdr16 s 34 / 2 + 31) / 32 := parsed_grH s
  have hhdr : stBit (unpackEffects s.parsed) 3 = true := (unpackEffects_bit s.parsed 3).trans (parsed_bit s 3)
  refine samplePhase_of_fits _ hhdr (unpackEffects_bit s.parsed 4) ?_ (by rw [hgw, hcw]) (by rw [hgh, hch])
  rw [hcw, hch]
  exact hfits

/-- Settles O41: each command's phase succeeds, and the completions in between leave no trace. -/
theorem runPerformsTheThreePhases : Obligations.RunPerformsTheThreePhases := by
  intro s k hread hfmt hord hgeom hunpack hsample
  have hvalid : headerValid s := ⟨hread, hfmt, ⟨k, hord⟩, hgeom⟩
  have h1 : parsePhase s = .ok s.parsed := (parsePhase_ok_iff s _).2 ⟨hvalid, rfl⟩
  have h2 := unpackPhase_parsed_of_fits s hunpack
  have h3 := samplePhase_unpacked_of_fits s hsample
  have hrun : exec .run s = .next (completeOk (sampleEffects (unpackEffects s.parsed))) := by
    rw [exec_run, runPhases_of_unpack_ok s _ _ h1 h2, h3, complete]
  have hbit : ∀ i, stBit (completeOk (sampleEffects (unpackEffects s.parsed))) i = _ := completeOk_bit _
  refine ⟨_, _, _, exec_parse_of_valid s hvalid, exec_unpack_completeOk_of_ok _ h2, exec_sample_completeOk_of_ok _ h3,
    hrun, hbit 0, hbit 1, (hbit 3).trans ?hdr, (hbit 4).trans ?planes, (hbit 5).trans ?grid⟩
  case hdr => exact (sampleEffects_bit _ 3).trans ((unpackEffects_bit _ 3).trans (parsed_bit s 3))
  case planes => exact (sampleEffects_bit _ 4).trans (unpackEffects_bit _ 4)
  case grid => exact sampleEffects_bit _ 5

end Sys2Proof.Machine
end

section
/-! RUN up to the first phase that fails (R244, R265). -/

namespace Sys2Proof.Machine

open Sys2Proof.Claims

/-- An error completion renamed: the same error, as RUN's. -/
theorem completeError_reissue (issued phase issued' phase' : BitVec 4) (code : ErrCode) (s : State) :
    (completeError issued phase code s).setErrcode
        (0#16 ++ issued' ++ phase' ++ (completeError issued phase code s).regs.errcode.extractLsb' 0 8)
      = completeError issued' phase' code s := by
  rw [completeError_errcode, errWord_code]; rfl

/-- Under an error completion an earlier success shows only in DONE. -/
theorem completeError_completeOk (issued phase : BitVec 4) (code : ErrCode) (s : State) :
    (completeError issued phase code (completeOk s)).setFlag .done (stBit s 1) = completeError issued phase code s := by
  have hstatus : ((completeError issued phase code (completeOk s)).setFlag .done (stBit s 1)).regs.status
      = (completeError issued phase code s).regs.status := by
    refine BitVec.eq_of_getLsbD_eq fun i _ => ?_
    rw [State.bit_setFlag]
    simp only [flagBit, completeError_bit, completeOk_bit]
    by_cases h1 : i = 1
    · subst h1; rfl
    · simp only [h1, if_false]
      split_ifs <;> rfl
  rw [completeError_eq issued phase code s, ← hstatus]; rfl

/-- A failing PARSE leaves STATUS to its completion. -/
theorem parsePhase_error_status (s u : State) (code : ErrCode) (h : parsePhase s = .error u code) :
    u.regs.status = s.regs.status := by
  rcases parsePhase_cases s with ⟨_, -, hp⟩ | ⟨_, -, -, hp⟩ | ⟨-, -, hp⟩ <;> rw [hp] at h <;> cases h <;> rfl

/-- How PARSE completes: with an error and HDR_VALID as it was, or well and with HDR_VALID. -/
theorem exec_parse_cases (s t : State) (h : exec .parse s = .next t) :
    (∃ u code, parsePhase s = .error u code ∧ t = completeError 1#4 1#4 code u ∧ stBit t 3 = stBit s 3)
      ∨ (parsePhase s = .ok s.parsed ∧ t = completeOk s.parsed ∧ stBit t 3 = true) := by
  rcases complete_cases _ _ _ t ((exec_parse s).symm.trans h) with ⟨u, hu, rfl⟩ | ⟨u, code, hu, rfl⟩
  · obtain ⟨-, rfl⟩ := (parsePhase_ok_iff s u).1 hu
    exact .inr ⟨hu, rfl, (completeOk_bit _ 3).trans (parsed_bit s 3)⟩
  · refine .inl ⟨u, code, hu, rfl, (completeError_bit _ _ _ u 3).trans ?_⟩
    rw [parsePhase_error_status s u code hu]; rfl

/-- How UNPACK completes after another completion. -/
theorem exec_unpack_completeOk_cases (s t : State) (h : exec .unpack (completeOk s) = .next t) :
    (∃ code, unpackPhase s = .error s code ∧ t = completeError 2#4 2#4 code (completeOk s)
        ∧ stBit t 4 = stBit s 4)
      ∨ (unpackPhase s = .ok (unpackEffects s) ∧ t = completeOk (unpackEffects s) ∧ stBit t 4 = true) := by
  rw [exec_unpack] at h
  rcases unpackPhase_completeOk s with ⟨code, hp, hp'⟩ | ⟨why, -, hp'⟩ | ⟨hp, hp'⟩ <;> rw [hp', complete] at h
  · obtain rfl := Host.Outcome.next.inj h
    exact .inl ⟨code, hp, rfl, (completeError_bit _ _ _ _ 4).trans (completeOk_bit s 4)⟩
  · cases h
  · obtain rfl := Host.Outcome.next.inj h
    rw [completeOk_completeOk]
    exact .inr ⟨hp, rfl, (completeOk_bit _ 4).trans (unpackEffects_bit s 4)⟩

/-- How SAMPLE completes after another completion. -/
theorem exec_sample_completeOk_cases (s t : State) (h : exec .sample (completeOk s) = .next t) :
    (∃ code, samplePhase s = .error s code ∧ t = completeError 3#4 3#4 code (completeOk s))
      ∨ (samplePhase s = .ok (sampleEffects s) ∧ stBit t 5 = true) := by
  rw [exec_sample] at h
  rcases samplePhase_completeOk s with ⟨code, hp, hp'⟩ | ⟨why, -, hp'⟩ | ⟨hp, hp'⟩ <;> rw [hp', complete] at h
  · obtain rfl := Host.Outcome.next.inj h
    exact .inl ⟨code, hp, rfl⟩
  · cases h
  · obtain rfl := Host.Outcome.next.inj h
    rw [completeOk_completeOk]
    exact .inr ⟨hp, (completeOk_bit _ 5).trans (sampleEffects_bit s 5)⟩

/-- Settles O42: the three places where RUN can stop, each with the command that stops there. -/
theorem runStopsAtTheFirstError : Obligations.RunStopsAtTheFirstError := by
  intro s t1 hhdr hplanes hgrid hparse
  rcases exec_parse_cases s t1 hparse with ⟨u, code, h1, rfl, hbit⟩ | ⟨h1, rfl, hbit⟩
  · refine ⟨fun _ => ?parse, fun t2 hset => absurd ((hbit.trans hhdr).symm.trans hset) Bool.false_ne_true⟩
    rw [completeError_reissue, exec_run, runPhases_of_parse_error s u code h1, complete]
  · refine ⟨fun hclear => absurd (hclear.symm.trans hbit) Bool.false_ne_true, fun t2 _ hunpack => ?_⟩
    rcases exec_unpack_completeOk_cases s.parsed t2 hunpack with ⟨code, h2, rfl, hbit2⟩ | ⟨h2, rfl, hbit2⟩
    · have hfalse := hbit2.trans ((parsed_bit s 4).trans hplanes)
      refine ⟨fun _ => ?unpack, fun t3 hset => absurd (hfalse.symm.trans hset) Bool.false_ne_true⟩
      rw [completeError_reissue, ← show stBit s.parsed 1 = stBit s 1 from parsed_bit s 1, completeError_completeOk,
        exec_run, runPhases_of_unpack_error s _ _ code h1 h2, complete]
    · refine ⟨fun hclear => absurd (hclear.symm.trans hbit2) Bool.false_ne_true, fun t3 _ hsample hclear => ?_⟩
      rcases exec_sample_completeOk_cases _ t3 hsample with ⟨code, h3, rfl⟩ | ⟨-, hbit3⟩
      · have hdone : stBit (unpackEffects s.parsed) 1 = stBit s 1 :=
          (unpackEffects_bit s.parsed 1).trans (parsed_bit s 1)
        rw [completeError_reissue, ← hdone, completeError_completeOk, exec_run,
          runPhases_of_unpack_ok s _ _ h1 h2, h3, complete]
      · exact absurd (hclear.symm.trans hbit3) Bool.false_ne_true

end Sys2Proof.Machine
end
